-- ==== Sys2Proof/Word.lean ====
section
/-! DEFINITION. The word of the exchange (spec/00_scope.md, Notational Conventions), the numbers of lines, and tables
of a fixed number of like things (one per line, per buffer, per generator). -/

namespace Sys2Proof

/-- A word is 16 bits (00_scope, Notational Conventions). -/
abbrev Word := BitVec 16

/-- Lines are numbered 0 to 8; line 8 is the host line (00_scope 2.1). -/
abbrev Line := Fin 9

/-- The physical lines L0 to L7 (00_scope 2.1). -/
abbrev PhysLine := Fin 8

/-- The host line H (00_scope 2.1). -/
def hostLine : Line := 8

/-- The line number of a physical line. -/
def PhysLine.line (n : PhysLine) : Line := ⟨n.val, by omega⟩

/-- Every line in increasing order of number. -/
def allLines : List Line := [0, 1, 2, 3, 4, 5, 6, 7, 8]

/-- `k` like things, numbered from 0. -/
abbrev Tab (α : Type) (k : Nat) := Vector α k

namespace Tab
variable {α : Type} {k : Nat}

/-- The thing numbered `i`. -/
def get (t : Tab α k) (i : Fin k) : α := t[i.val]

/-- The table with the thing numbered `i` replaced. -/
def put (t : Tab α k) (i : Fin k) (a : α) : Tab α k := Vector.set t i.val a

/-- The table whose thing numbered `i` is `f i`. -/
def of (f : Fin k → α) : Tab α k := Vector.ofFn f

/-- The table of `k` times the same thing. -/
def all (k : Nat) (a : α) : Tab α k := Vector.replicate k a

end Tab

/-- A set of lines: the flag of line n says whether n is a member. -/
abbrev LineSet := Tab Bool 9

namespace LineSet

/-- The empty set of lines. -/
def empty : LineSet := Tab.all 9 false

/-- Whether no line is a member. -/
def isEmpty (l : LineSet) : Bool := allLines.all fun n => !l.get n

/-- How many lines are members. -/
def card (l : LineSet) : Nat := (allLines.filter fun n => l.get n).length

/-- The set with line `n` added. -/
def insert (l : LineSet) (n : Line) : LineSet := l.put n true

/-- The set without line `n`. -/
def erase (l : LineSet) (n : Line) : LineSet := l.put n false

end LineSet

/-- Bits 8-0 of a register word, bit n for line n (11 Table 11-2). -/
def lineBit (w : Word) (n : Line) : Bool := w.getLsbD n.val

end Sys2Proof
end

