-- ==== Sys2Proof/Syntax.lean ====
section
/-! DEFINITION. The commands of the exchange: one constructor per row of spec/opcode_table.json. The table gives its rows no
fields; each operand below is read from the rule the row names. -/

namespace Sys2Proof

/-- The two sides of a line that a frame boundary reaches (R20): the receive side (receiver, check logic, store, damage
window, for the host line its block) and the transmit side (holds, adoption, suspension test, load claim). -/
inductive Side where
  | receive
  | transmit
deriving DecidableEq, Repr

/-- One side of one line, as taken at a generator's frame start. -/
structure Part where
  line : Line
  side : Side
deriving DecidableEq, Repr

/-- The orders in which what falls together at an event of one line is taken (log 6). -/
structure LineOrder where
  /-- Of the line's two sides the transmit side is taken first. -/
  txFirst : Bool
  /-- The order in which the event queue takes the records that different blocks and lines send (R165). -/
  turns : List Nat
deriving DecidableEq, Repr

/-- An expiry of a frame timer: the bits sampled before it, and the orders at it. -/
structure Expiry where
  samples : List Bool
  order : LineOrder
deriving DecidableEq, Repr

/-- The orders in which what falls together at a generator's frame start is taken (logs 5 and 6). -/
structure StartOrder where
  /-- The sides of the timed lines. -/
  sides : List Part
  /-- The order in which the event queue takes the records that different blocks and lines send (R165). -/
  turns : List Nat
deriving DecidableEq, Repr

/-- A command: an event of a line, of a timer or of table memory, or an access of the host bus. A register write carries
the word written; bits that its register does not use are ignored (R177). The three events of the lines' timing carry, beside
what they name, `samples`: the bits that the line samples on LRXDn in the bit clocks before the event, oldest first, after
those that the block has taken already (log 4); and the orders in which what falls together is taken. -/
inductive Instr where
  /-- RESET_N low (R23). -/
  | deviceReset
  /-- A frame sync arrival on a physical line (R3, R12). -/
  | syncArrival (line : PhysLine) (samples : List Bool) (order : LineOrder)
  /-- The frame timer of a line expires (R12, R18). -/
  | timerExpiry (line : PhysLine) (expiry : Expiry)
  /-- A running generator reaches a frame start (R9); `samples` for each physical line. -/
  | fgFrameStart (gen : Fin 2) (samples : Tab (List Bool) 8) (order : StartOrder)
  /-- The arbiter grants the port (R87). -/
  | arbiterGrant
  /-- The granted slot-program load completes (R85). -/
  | loadComplete
  /-- The granted host READ of a map table completes (R80). -/
  | mapReadComplete
  /-- The granted host WRITE to MAP_STAGED completes (R83). -/
  | mapWriteComplete
  /-- The granted copy step completes (R107). -/
  | copyStepComplete
  /-- The stretch-limit timer of a waiting map operation expires (R185). -/
  | stretchLimitExpiry
  /-- EXCH_COMMAND written with RESTART (R23). -/
  | exchangeRestart
  /-- EXCH_COMMAND written with COMMIT (R99). -/
  | commit
  /-- EXCH_COMMAND written with COPY (R106). -/
  | copy
  /-- The bits written 1 of a write to LINE_ENABLE (R10). -/
  | lineEnable (value : Word)
  /-- The bits written 0 of a write to LINE_ENABLE (R22). -/
  | lineDisable (value : Word)
  /-- A write to LINE_RESTART (R21). -/
  | lineRestart (value : Word)
  /-- A read of ENABLE_REFUSED (R10). -/
  | enableRefusedRead
  /-- A write to FG0_PERIOD or FG1_PERIOD (R7). -/
  | fgPeriodWrite (gen : Fin 2) (value : Word)
  /-- A write to FG0_PHASE or FG1_PHASE (R7). -/
  | fgPhaseWrite (gen : Fin 2) (value : Word)
  /-- The START codes of a write to FG_CONTROL (R6). -/
  | fgStart (value : Word)
  /-- The STOP codes of a write to FG_CONTROL (R8). -/
  | fgStop (value : Word)
  /-- A write to GROUP_POLICY (R155). -/
  | groupPolicyWrite (value : Word)
  /-- A write to LINE_RELEASE (R157). -/
  | lineRelease (value : Word)
  /-- A write to GROUP_RELEASE (R158). -/
  | groupRelease (value : Word)
  /-- A write to TP_CURSOR (R178). -/
  | tpCursorWrite (value : Word)
  /-- A write to TP_CONTROL (R180). -/
  | tpControlWrite (value : Word)
  /-- A write to TP_DATA0 to TP_DATA3 (R179). -/
  | tpDataWrite (index : Fin 4) (value : Word)
  /-- TP_COMMAND written with READ (R182). -/
  | tpRead
  /-- TP_COMMAND written with WRITE (R183). -/
  | tpWrite
  /-- A write to IRQ_STATUS (R173). -/
  | irqStatusWrite (value : Word)
  /-- A write to IRQ_ENABLE (R174). -/
  | irqEnableWrite (value : Word)
  /-- A write to EVQ_COUNT (R171). -/
  | evqCountWrite (value : Word)
  /-- A read of EVQ_HEAD0 (R168). -/
  | evqHead0Read
  /-- A write to EVQ_POP (R169). -/
  | evqPop (value : Word)
  /-- A write to INSERT_DATA (R130). -/
  | insertDataWrite (value : Word)
  /-- INSERT_CONTROL written with SUBMIT (R131). -/
  | submit
  /-- INSERT_CONTROL written with DISCARD (R132). -/
  | discard
  /-- A read of CAPTURE_DATA (R140). -/
  | captureDataRead
  /-- A write to CAPTURE_POP (R141). -/
  | capturePop (value : Word)
  /-- A write that is ignored (R177). -/
  | registerWriteIgnored (address : BitVec 6) (value : Word)
deriving DecidableEq, Repr

end Sys2Proof
end

