-- ==== Sys2Proof/Decode.lean ====
section
/-! DEFINITION. From a host bus access to commands (11 Table 11-1, Table 11-2), and back; and the host's question
`decodeTableWord`, for which the table gives no row any bits. -/

namespace Sys2Proof

/-- The field of `len` bits of a word that begins at bit `lo`, as a number. -/
def Word.field (w : Word) (lo len : Nat) : Nat := (w.toNat / 2 ^ lo) % 2 ^ len

/-- Bit `i` of a word. -/
def Word.bit (w : Word) (i : Nat) : Bool := w.getLsbD i

/-- The code a write to FG_CONTROL carries for generator `g`: bits 1-0 for FG0, bits 3-2 for FG1 (11 Table 11-2). -/
def fgCode (value : Word) (g : Fin 2) : Nat := value.field (2 * g.val) 2

/-- The write of FG_CONTROL carries START for some generator. -/
def fgHasStart (value : Word) : Bool := fgCode value 0 == 1 || fgCode value 1 == 1

/-- The write of FG_CONTROL carries STOP for some generator. -/
def fgHasStop (value : Word) : Bool := fgCode value 0 == 2 || fgCode value 1 == 2

/-- The addresses at which every write is ignored (R177): DEVICE_CODE, the read-only registers and the addresses that
Table 11-1 does not name. -/
def readOnlyAddress (a : BitVec 6) : Bool :=
  a == 0x00 || a == 0x02 || a == 0x05 || a == 0x0E || a == 0x0F || a == 0x17
    || (decide (0x1B ≤ a.toNat) && decide (a.toNat ≤ 0x1E)) || a == 0x22 || a == 0x23 || a == 0x25
    || decide (0x26 ≤ a.toNat)

/-- A write that is ignored: at an address of `readOnlyAddress`, or with a code that names no command (R97, R132, R177,
R181). -/
def writeIgnored (a : BitVec 6) (value : Word) : Bool :=
  readOnlyAddress a
    || (a == 0x01 && !(value.field 0 4 == 1 || value.field 0 4 == 2 || value.field 0 4 == 3))
    || (a == 0x16 && !(value.field 0 2 == 1 || value.field 0 2 == 2))
    || (a == 0x21 && !(value.field 0 2 == 1 || value.field 0 2 == 2))

/-- The commands that one write of the host bus is. A write to LINE_ENABLE is taken bit by bit (R10): its bits written 1
and its bits written 0 are two commands with the same word. A write to FG_CONTROL that starts one generator and stops the
other is two commands likewise (R6), and one that carries no code has no effect (log 10). -/
def decodeWrite (a : BitVec 6) (value : Word) : List Instr :=
  if writeIgnored a value then [.registerWriteIgnored a value]
  else match a.toNat with
  | 0x01 =>
    if value.field 0 4 = 1 then [.exchangeRestart] else if value.field 0 4 = 2 then [.commit] else [.copy]
  | 0x03 => [.lineEnable value, .lineDisable value]
  | 0x04 => [.lineRestart value]
  | 0x06 => [.fgPeriodWrite 0 value]
  | 0x07 => [.fgPhaseWrite 0 value]
  | 0x08 => [.fgPeriodWrite 1 value]
  | 0x09 => [.fgPhaseWrite 1 value]
  | 0x0A =>
    (if fgHasStart value then [.fgStart value] else []) ++ (if fgHasStop value then [.fgStop value] else [])
  | 0x0B => [.groupPolicyWrite value]
  | 0x0C => [.lineRelease value]
  | 0x0D => [.groupRelease value]
  | 0x10 => [.tpCursorWrite value]
  | 0x11 => [.tpControlWrite value]
  | 0x12 => [.tpDataWrite 0 value]
  | 0x13 => [.tpDataWrite 1 value]
  | 0x14 => [.tpDataWrite 2 value]
  | 0x15 => [.tpDataWrite 3 value]
  | 0x16 => if value.field 0 2 = 1 then [.tpRead] else [.tpWrite]
  | 0x18 => [.irqStatusWrite value]
  | 0x19 => [.irqEnableWrite value]
  | 0x1A => [.evqCountWrite value]
  | 0x1F => [.evqPop value]
  | 0x20 => [.insertDataWrite value]
  | 0x21 => if value.field 0 2 = 1 then [.submit] else [.discard]
  | 0x24 => [.capturePop value]
  | _ => []

/-- The command that a read of the host bus is, for the three registers whose read changes state (R10, R140, R168). A
read of any other address changes nothing and returns `readRegister`. -/
def decodeRead (a : BitVec 6) : Option Instr :=
  match a.toNat with
  | 0x05 => some .enableRefusedRead
  | 0x1B => some .evqHead0Read
  | 0x22 => some .captureDataRead
  | _ => none

/-- One access of the host bus (R176). -/
inductive BusAccess where
  | read (address : BitVec 6)
  | write (address : BitVec 6) (value : Word)
deriving DecidableEq, Repr

/-- The commands of a host bus access. -/
def decodeAccess : BusAccess → List Instr
  | .read a => (decodeRead a).toList
  | .write a v => decodeWrite a v

/-- The host bus access that issues a command, none for an event that is no host access. -/
def encodeAccess : Instr → Option BusAccess
  | .deviceReset => none
  | .syncArrival _ _ _ => none
  | .timerExpiry _ _ => none
  | .fgFrameStart _ _ _ => none
  | .arbiterGrant => none
  | .loadComplete => none
  | .mapReadComplete => none
  | .mapWriteComplete => none
  | .copyStepComplete => none
  | .stretchLimitExpiry => none
  | .exchangeRestart => some (.write 0x01 1)
  | .commit => some (.write 0x01 2)
  | .copy => some (.write 0x01 3)
  | .lineEnable v => some (.write 0x03 v)
  | .lineDisable v => some (.write 0x03 v)
  | .lineRestart v => some (.write 0x04 v)
  | .enableRefusedRead => some (.read 0x05)
  | .fgPeriodWrite g v => some (.write (if g = 0 then 0x06 else 0x08) v)
  | .fgPhaseWrite g v => some (.write (if g = 0 then 0x07 else 0x09) v)
  | .fgStart v => some (.write 0x0A v)
  | .fgStop v => some (.write 0x0A v)
  | .groupPolicyWrite v => some (.write 0x0B v)
  | .lineRelease v => some (.write 0x0C v)
  | .groupRelease v => some (.write 0x0D v)
  | .tpCursorWrite v => some (.write 0x10 v)
  | .tpControlWrite v => some (.write 0x11 v)
  | .tpDataWrite k v => some (.write (0x12 + BitVec.ofNat 6 k.val) v)
  | .tpRead => some (.write 0x16 1)
  | .tpWrite => some (.write 0x16 2)
  | .irqStatusWrite v => some (.write 0x18 v)
  | .irqEnableWrite v => some (.write 0x19 v)
  | .evqCountWrite v => some (.write 0x1A v)
  | .evqHead0Read => some (.read 0x1B)
  | .evqPop v => some (.write 0x1F v)
  | .insertDataWrite v => some (.write 0x20 v)
  | .submit => some (.write 0x21 1)
  | .discard => some (.write 0x21 2)
  | .captureDataRead => some (.read 0x22)
  | .capturePop v => some (.write 0x24 v)
  | .registerWriteIgnored a v => some (.write a v)

/-- The command is an access of the host bus, and so waits while RDY is inactive (R176). -/
def Instr.isHostAccess (i : Instr) : Bool := (encodeAccess i).isSome

/-- The command that the word spells by the table's bits. spec/opcode_table.json gives no row any bits, so no word spells
a command (log 19). -/
def decodeTableWord (_nbits _w : Nat) : Option Instr := none

end Sys2Proof
end

