-- ==== Sys2Proof/Config.lean ====
section
/-! DEFINITION. What the part fixes (sizes) and the one value the spec leaves open, a constant without a body. -/

namespace Sys2Proof.Config

/-- DEVICE_CODE (R177). -/
def deviceCode : Word := 0x0908

/-- The event queue holds at most 32 records (R163). -/
def eventCapacity : Nat := 32

/-- The capture queue holds at most 8 frames (R129). -/
def captureCapacity : Nat := 8

/-- Entries of a map bank (R76). -/
def mapEntries : Nat := 528

/-- Received frames of one damage window (R148). -/
def windowFrames : Nat := 256

/-- REFCLK periods in one unit of the stretch limit (R180). -/
def stretchUnit : Nat := 64

/-- Bit clocks past the expected position at which the frame timer expires (R12). -/
def expiryMargin : Nat := 16

/-- Bits of a slot (R3). -/
def slotBits : Nat := 16

/-- Words of a line's buffers and last-word memory: 64, on the host line 16 (R36, R113). -/
def lineWords (n : Line) : Nat := if n = hostLine then 16 else 64

/-- The level of LTXDn of line `n` at bit clock `b` while the line is not running, but for an
enabled line whose driving is suspended (R123). R4 states LTXEn then and gives LTXDn no level: a FREE VALUE (log 15). -/
opaque ltxdNotRunning : PhysLine → Nat → Bool

end Sys2Proof.Config
end

