-- ==== Sys2Proof/Machine/State.lean ====
section
/-! DEFINITION. The state of the exchange: every register, buffer, queue, counter and flag the spec gives it, block by block
(00_scope Table 0-1), and the queue of commands that are waiting. -/

namespace Sys2Proof.Machine

/-! ### Lines and generators (Chapters 1 and 2) -/

/-- Timing source of a line (R1). -/
inductive Timing where
  | external
  | fg (gen : Fin 2)
deriving DecidableEq, Repr

/-- The line configuration record (R1, Table 1-1). -/
structure LineConfig where
  slotCount : Nat
  timing : Timing
  bitDivider : Nat
  checkEnable : Bool
  group : Fin 4
  damageThreshold : Nat
  autoRehunt : Bool
deriving DecidableEq, Repr

/-- Receiver synchronisation state (R11 to R19). -/
inductive Receiver where
  | disabled
  | hunt
  | verify
  | locked
  | lost
deriving DecidableEq, Repr

/-- What a line interface holds: the configuration record (R1), the LINE_ENABLE bit (R10), the receiver with its verify
count, consecutive-early count and frame timer (R11 to R19), the transmit frame counter (R25) and the receive reference
(R29). The last two have no use on the host line and keep their reset values there. -/
structure LineUnit where
  config : LineConfig
  enabled : Bool
  receiver : Receiver
  verifyCount : Nat
  earlyCount : Nat
  timerArmed : Bool
  txCounter : BitVec 4
  rxRef : Option (BitVec 4)
deriving DecidableEq, Repr

/-- A frame generator (R5, R7); `frameStarts` is the number k of frame starts since its START (R6). -/
structure Generator where
  period : Word
  phase : Word
  running : Bool
  refused : Bool
  frameStarts : Nat
deriving DecidableEq, Repr

/-! ### Receive frame stores and readers (Chapters 3 and 4) -/

/-- Buffer states (Table 3-1). -/
inductive BufferState where
  | free
  | filling
  | ready
  | retired
deriving DecidableEq, Repr

/-- A buffer of a receive frame store (R36); `slotCount` is the slot count the frame was received with. -/
structure Buffer where
  state : BufferState
  number : Option (BitVec 32)
  damaged : Bool
  holders : LineSet
  slotCount : Nat
  words : List Word
deriving DecidableEq, Repr

/-- A receive frame store (R36, R37, R46). -/
structure Store where
  buffers : Tab Buffer 4
  frameCount : BitVec 32
  discarding : Bool
  overrunRun : Bool
deriving DecidableEq, Repr

/-- A reader (R56): its cursor, NONE or a frame number, and the buffer it holds. -/
structure Reader where
  cursor : Option (BitVec 32)
  held : Option (Fin 4)
deriving DecidableEq, Repr

/-! ### Table memory, arbiter and bank control (Chapters 5 and 6) -/

/-- Entry kinds (R77). -/
inductive EntryKind where
  | idle
  | constant
  | route
deriving DecidableEq, Repr

/-- Substitution policies of a ROUTE entry (R77). -/
inductive EntryPolicy where
  | hold
  | fill
deriving DecidableEq, Repr

/-- A map entry (R77, Table 5-2). -/
structure MapEntry where
  kind : EntryKind
  policy : EntryPolicy
  sourceLine : Line
  sourceSlot : Fin 64
  value : Word
deriving DecidableEq, Repr

/-- The entry with all fields zero, the device-reset content of every index (R79). -/
def MapEntry.zero : MapEntry := ⟨.idle, .hold, 0, 0, 0⟩

/-- A map bank: the entries that differ from `MapEntry.zero`, by index, indexes strictly rising. -/
abbrev Bank := List (Nat × MapEntry)

/-- The names of the two banks (R76). -/
inductive BankName where
  | A
  | B
deriving DecidableEq, Repr

/-- Bank pair states (Table 6-1). -/
inductive PairState where
  | stable
  | commitPending
  | copying
deriving DecidableEq, Repr

/-- Command results of EXCH_STATUS (Table 6-2). -/
inductive CommandResult where
  | none
  | ok
  | busy
  | stagedIncomplete
deriving DecidableEq, Repr

/-- Bank control (R94); `stagedValid` is the staged validity, true for VALID. -/
structure BankControl where
  pair : PairState
  active : BankName
  stagedValid : Bool
  current : Tab BankName 9
  adoptionSet : LineSet
  copyIndex : Nat
  result : CommandResult
deriving DecidableEq, Repr

/-- A waiting host claim (R86): a READ, or a WRITE with the entry that the data words held, validated, when TP_COMMAND was
written (R81). -/
inductive HostOp where
  | read
  | write (entry : MapEntry)
deriving DecidableEq, Repr

/-- The claim that holds the port (R86, R88). A load carries the slot program it reads, as the entries stood at the grant
(R84), and whether its line has run without a break since (R85); a host READ carries the entry it reads (R80) and a host WRITE the entry it writes (R81); a copy
step carries its index and whether its copy is still in progress (R111). -/
inductive Grant where
  | load (line : Line) (program : List MapEntry) (live : Bool)
  | hostRead (entry : MapEntry)
  | hostWrite (entry : MapEntry)
  | copyStep (index : Nat) (live : Bool)
deriving DecidableEq, Repr

/-- The table memory arbiter (R86). -/
structure Arbiter where
  loadQueue : List Line
  hostClaim : Option HostOp
  copyClaim : Option Nat
  grant : Option Grant
deriving DecidableEq, Repr

/-! ### Transmit assembly and host line (Chapters 7 and 8) -/

/-- A containment view (R113): a held frame, an absent source or a contained source. -/
inductive View where
  | held (buffer : Fin 4) (slotCount : Nat) (damaged : Bool)
  | absent
  | contained
deriving DecidableEq, Repr

/-- A fixed frame: per slot, undriven (`none`) or driven with a word (R113). -/
abbrev FixedFrame := List (Option Word)

/-- A transmit assembler (R113). `spanSuspended`: the span of the frame in progress has included a moment of suspension
(R127, used by the host line). -/
structure Assembler where
  program : Option (List MapEntry)
  views : Tab (Option View) 9
  lastWords : List Word
  fixed : Option FixedFrame
  suspended : Bool
  spanSuspended : Bool
deriving DecidableEq, Repr

/-- A submitted insert frame (R129). -/
structure InsertFrame where
  slotCount : Nat
  words : List Word
deriving DecidableEq, Repr

/-- A captured frame (R129): a word and a driven flag for each slot. -/
structure CapturedFrame where
  slotCount : Nat
  words : List Word
  mask : List Bool
deriving DecidableEq, Repr

/-- The host line block (R129). -/
structure HostBlock where
  compose : List Word
  overFlag : Bool
  shortFlag : Bool
  busyFlag : Bool
  insertPending : Option InsertFrame
  underrunArmed : Bool
  captures : List CapturedFrame
  readIndex : Nat
  overflowRun : Bool
deriving DecidableEq, Repr

/-! ### Supervision, event queue and interrupt (Chapters 9 and 10) -/

/-- A damage window (R148). The host line has none; its entry keeps the reset value. -/
structure Window where
  frames : Nat
  damaged : Nat
  reported : Bool
deriving DecidableEq, Repr

/-- Fault causes (R151). -/
inductive Cause where
  | lost
  | degraded
  | group
deriving DecidableEq, Repr

/-- A cause set (R151): each cause present at most once. -/
structure CauseSet where
  lost : Bool
  degraded : Bool
  group : Bool
deriving DecidableEq, Repr

/-- Containment policies (Table 9-2). -/
inductive Policy where
  | notify
  | silence
  | isolate
  | isolateGroup
deriving DecidableEq, Repr

/-- Event kinds (R163, Table 10-1). -/
inductive EventKind where
  | sync
  | fault
  | release
  | slipRepeat
  | slipDrop
  | overrun
  | commitDone
  | copyDone
  | insertUnderrun
  | captureOverflow
deriving DecidableEq, Repr

/-- An event record (R163, Table 10-1). -/
structure EventRecord where
  kind : EventKind
  lineA : Line
  lineB : Line
  count : Word
  detail : Word
  stamp : Word
deriving DecidableEq, Repr

/-- The event queue (R163) with the head view latch (R168). -/
structure EventQueue where
  records : List EventRecord
  lost : BitVec 8
  latch : Tab Word 4
deriving DecidableEq, Repr

/-- The sticky bits of IRQ_STATUS (R172) and IRQ_ENABLE (R174). -/
structure Irq where
  evqLoss : Bool
  commitDone : Bool
  copyDone : Bool
  tpTimeout : Bool
  enable : Word
deriving DecidableEq, Repr

/-! ### Host bus and table port (Chapter 11) -/

/-- Table-port results (Table 11-4). -/
inductive TpResult where
  | ok
  | rejectField
  | rejectLive
  | rejectBusy
  | readOnly
  | noTable
  | noEntry
  | timeout
deriving DecidableEq, Repr

/-- The table port (R178 to R186); `timer` is the stretch-limit timer, with the REFCLK periods it was started with. -/
structure TablePort where
  tableId : BitVec 4
  index : BitVec 10
  data : Tab Word 4
  autoAdvance : Bool
  clearOnRead : Bool
  limit : BitVec 8
  result : TpResult
  wrapped : Bool
  timer : Option Nat
deriving DecidableEq, Repr

/-- The host bus: the word last driven on D[15:0] by a read that is a command, and the accesses begun while RDY is
inactive, oldest first (R176). -/
structure HostBus where
  readData : Word
  held : List Instr
deriving DecidableEq, Repr

/-- The exchange. `received` holds for each line the bits sampled since the arrival that armed its frame timer, or since its
frame start, oldest first; their number is the frame timer's count of bit clocks (R4, R12). `pending`, the queue of waiting
commands, and `incoming`, the bits that the far ends send next with the line each stands on, oldest first, are the model's
own: its inputs (log 1, log 4). -/
structure State where
  lines : Tab LineUnit 9
  enableRefused : LineSet
  gens : Tab Generator 2
  stores : Tab Store 9
  readers : Tab (Tab Reader 9) 9
  bankA : Bank
  bankB : Bank
  bc : BankControl
  arb : Arbiter
  txas : Tab Assembler 9
  host : HostBlock
  counters : Tab (Tab Word 8) 9
  windows : Tab Window 9
  causes : Tab CauseSet 9
  policies : Tab Policy 4
  evq : EventQueue
  irq : Irq
  tp : TablePort
  bus : HostBus
  pending : List Instr
  received : Tab (List Bool) 9
  incoming : List (PhysLine × Bool)
deriving DecidableEq, Repr

/-! ### One named update for each field of the state -/

namespace State

/-- The state with `lines` replaced. -/
def withLines (s : State) (v : Tab LineUnit 9) : State := { s with lines := v }

/-- The state with `enableRefused` replaced. -/
def withEnableRefused (s : State) (v : LineSet) : State := { s with enableRefused := v }

/-- The state with `gens` replaced. -/
def withGens (s : State) (v : Tab Generator 2) : State := { s with gens := v }

/-- The state with `stores` replaced. -/
def withStores (s : State) (v : Tab Store 9) : State := { s with stores := v }

/-- The state with `readers` replaced. -/
def withReaders (s : State) (v : Tab (Tab Reader 9) 9) : State := { s with readers := v }

/-- The state with `bankA` replaced. -/
def withBankA (s : State) (v : Bank) : State := { s with bankA := v }

/-- The state with `bankB` replaced. -/
def withBankB (s : State) (v : Bank) : State := { s with bankB := v }

/-- The state with `bc` replaced. -/
def withBc (s : State) (v : BankControl) : State := { s with bc := v }

/-- The state with `arb` replaced. -/
def withArb (s : State) (v : Arbiter) : State := { s with arb := v }

/-- The state with `txas` replaced. -/
def withTxas (s : State) (v : Tab Assembler 9) : State := { s with txas := v }

/-- The state with `host` replaced. -/
def withHost (s : State) (v : HostBlock) : State := { s with host := v }

/-- The state with `counters` replaced. -/
def withCounters (s : State) (v : Tab (Tab Word 8) 9) : State := { s with counters := v }

/-- The state with `windows` replaced. -/
def withWindows (s : State) (v : Tab Window 9) : State := { s with windows := v }

/-- The state with `causes` replaced. -/
def withCauses (s : State) (v : Tab CauseSet 9) : State := { s with causes := v }

/-- The state with `policies` replaced. -/
def withPolicies (s : State) (v : Tab Policy 4) : State := { s with policies := v }

/-- The state with `evq` replaced. -/
def withEvq (s : State) (v : EventQueue) : State := { s with evq := v }

/-- The state with `irq` replaced. -/
def withIrq (s : State) (v : Irq) : State := { s with irq := v }

/-- The state with `tp` replaced. -/
def withTp (s : State) (v : TablePort) : State := { s with tp := v }

/-- The state with `bus` replaced. -/
def withBus (s : State) (v : HostBus) : State := { s with bus := v }

/-- The state with `pending` replaced. -/
def withPending (s : State) (v : List Instr) : State := { s with pending := v }

/-- The state with `received` replaced. -/
def withReceived (s : State) (v : Tab (List Bool) 9) : State := { s with received := v }

/-- The state with `incoming` replaced. -/
def withIncoming (s : State) (v : List (PhysLine × Bool)) : State := { s with incoming := v }

end State

/-! ### Device reset -/

/-- Device-reset configuration record (R1, Table 1-1). -/
def LineConfig.reset (n : Line) : LineConfig where
  slotCount := if n = hostLine then 16 else 32
  timing := if n = hostLine then .fg 0 else .external
  bitDivider := 1
  checkEnable := false
  group := 0
  damageThreshold := 0
  autoRehunt := false

/-- A line after device reset (R23, R25, R29). -/
def LineUnit.reset (n : Line) : LineUnit where
  config := .reset n
  enabled := false
  receiver := .disabled
  verifyCount := 0
  earlyCount := 0
  timerArmed := false
  txCounter := 0
  rxRef := none

/-- A generator after device reset (R5, R7). -/
def Generator.reset : Generator where
  period := 512
  phase := 0
  running := false
  refused := false
  frameStarts := 0

/-- A buffer of line n's store after device reset (R41). -/
def Buffer.reset (n : Line) : Buffer where
  state := .free
  number := none
  damaged := false
  holders := LineSet.empty
  slotCount := 0
  words := List.replicate (Config.lineWords n) 0

/-- A store after device reset (R41). -/
def Store.reset (n : Line) : Store where
  buffers := Tab.all 4 (.reset n)
  frameCount := 0
  discarding := false
  overrunRun := false

/-- A reader after device reset (R56). -/
def Reader.reset : Reader := ⟨none, none⟩

/-- Bank control after device reset (R94). -/
def BankControl.reset : BankControl where
  pair := .stable
  active := .A
  stagedValid := true
  current := Tab.all 9 .A
  adoptionSet := LineSet.empty
  copyIndex := 0
  result := .none

/-- The arbiter after device reset (R86). -/
def Arbiter.reset : Arbiter := ⟨[], none, none, none⟩

/-- A line's assembler after device reset (R113). -/
def Assembler.reset (n : Line) : Assembler where
  program := none
  views := Tab.all 9 none
  lastWords := List.replicate (Config.lineWords n) 0
  fixed := none
  suspended := false
  spanSuspended := false

/-- The host line block after device reset (R129). -/
def HostBlock.reset : HostBlock where
  compose := []
  overFlag := false
  shortFlag := false
  busyFlag := false
  insertPending := none
  underrunArmed := false
  captures := []
  readIndex := 0
  overflowRun := false

/-- A damage window with both counts 0 and the reported flag clear (R148, R150). -/
def Window.reset : Window := ⟨0, 0, false⟩

/-- The empty cause set (R151). -/
def CauseSet.empty : CauseSet := ⟨false, false, false⟩

/-- The event queue after device reset (R163, R168). -/
def EventQueue.reset : EventQueue := ⟨[], 0, Tab.all 4 0⟩

/-- The interrupt logic after device reset (R172, R174). -/
def Irq.reset : Irq := ⟨false, false, false, false, 0⟩

/-- The table port after device reset (R178 to R180, R186). -/
def TablePort.reset : TablePort where
  tableId := 0
  index := 0
  data := Tab.all 4 0
  autoAdvance := false
  clearOnRead := false
  limit := 255
  result := .ok
  wrapped := false
  timer := none

/-- The host bus after device reset: no access waits (log 9), and D[15:0] carries no word yet (log 11). -/
def HostBus.reset : HostBus := ⟨0, []⟩

/-- The exchange right after device reset, with no command and no bit waiting. -/
def State.reset : State where
  lines := Tab.of LineUnit.reset
  enableRefused := LineSet.empty
  gens := Tab.all 2 .reset
  stores := Tab.of Store.reset
  readers := Tab.all 9 (Tab.all 9 .reset)
  bankA := []
  bankB := []
  bc := .reset
  arb := .reset
  txas := Tab.of Assembler.reset
  host := .reset
  counters := Tab.all 9 (Tab.all 8 0)
  windows := Tab.all 9 .reset
  causes := Tab.all 9 .empty
  policies := Tab.all 4 .notify
  evq := .reset
  irq := .reset
  tp := .reset
  bus := .reset
  pending := []
  received := Tab.all 9 []
  incoming := []

/-- Reasons to stop with a fault: there is none. No rule of the spec stops the block: a request that is not carried out is
refused in a result field and a failing line holds causes, both ordinary next states. Safe: nothing is raised. -/
inductive Fault where
deriving DecidableEq, Repr

/-- Reasons to give a command no meaning. -/
inductive Refusal where
  /-- Raised by an arm of `exec` whose row has no meaning yet; no arm raises it now. Safe: nothing can be proved of the
  outcome. -/
  | notModelled (mnemonic : String)
  /-- Raised by REGISTER_WRITE_IGNORED whose operands name a write that the exchange does not ignore, so that another row
  of the table is that write (R177, log 18). No bus access is such a command. Safe: nothing can be proved of the
  outcome. -/
  | writeNotIgnored
deriving DecidableEq, Repr

end Sys2Proof.Machine
end

