-- ==== Sys2Proof/Machine/Flags.lean ====
section
/-! DEFINITION. Every condition of the exchange that is computed from its state: running lines, fault states, containment,
the newest ready frame, the level bits of IRQ_STATUS, IRQ_N and RDY. -/

namespace Sys2Proof.Machine

/-! ### Lines -/

/-- A line is running while it is enabled and its receiver is LOCKED (R20). -/
def LineUnit.running (l : LineUnit) : Bool := l.enabled && l.receiver == .locked

/-- Line `n` is running (R20). -/
def State.running (s : State) (n : Line) : Bool := (s.lines.get n).running

/-- The number of bit clocks of a frame, its expected position after the sync that begins it (R12). -/
def LineConfig.frameBits (c : LineConfig) : Nat := c.slotCount * Config.slotBits

/-- The REFCLK periods that an internally timed frame occupies (R3, R10). -/
def LineConfig.frameRefclks (c : LineConfig) : Nat := c.slotCount * Config.slotBits * c.bitDivider

/-- The fit check: the line is timed by no generator, or by another, or its frame fits a period of `g` (R10). -/
def LineConfig.fits (c : LineConfig) (g : Fin 2) (period : Word) : Bool :=
  c.timing != .fg g || decide (c.frameRefclks ≤ period.toNat)

/-- The k-th frame start of a generator, in REFCLK periods after the write that started it (R6). -/
def Generator.frameStartTime (g : Generator) (k : Nat) : Nat := g.phase.toNat + k * g.period.toNat

/-! ### Stores -/

/-- Frame number `a` is newer than `b` (R38). -/
def newer (a b : BitVec 32) : Bool := decide (1 ≤ (a - b).toNat) && decide ((a - b).toNat ≤ 2 ^ 31 - 1)

/-- The frame number a buffer offers to a reader: that of a READY buffer. -/
def Buffer.readyNumber (b : Buffer) : Option (BitVec 32) := if b.state = .ready then b.number else none

/-- The READY buffers of a store with their frame numbers. -/
def Store.readyFrames (st : Store) : List (Fin 4 × BitVec 32) :=
  [0, 1, 2, 3].filterMap fun i => (st.buffers.get i).readyNumber.map fun n => (i, n)

/-- The newest ready frame: the READY buffer whose number is newer than those of all other READY buffers (R38). -/
def Store.newest (st : Store) : Option (Fin 4 × BitVec 32) :=
  st.readyFrames.find? fun f => st.readyFrames.all fun g => g.1 == f.1 || newer f.2 g.2

/-- The FILLING buffer (R42: at most one). -/
def Store.filling (st : Store) : Option (Fin 4) :=
  [0, 1, 2, 3].find? fun i => (st.buffers.get i).state == .filling

/-- A frame is arriving: into a FILLING buffer, or to be discarded (R44, R46). -/
def Store.receiving (st : Store) : Bool := st.filling.isSome || st.discarding

/-! ### Fault states and containment -/

/-- The fault state is FAULTED exactly when the cause set is not empty (R151). -/
def CauseSet.faulted (c : CauseSet) : Bool := c.lost || c.degraded || c.group

/-- The cause set holds an own cause, LOST or DEGRADED (R151). -/
def CauseSet.own (c : CauseSet) : Bool := c.lost || c.degraded

/-- The cause set holds the cause. -/
def CauseSet.has (c : CauseSet) : Cause → Bool
  | .lost => c.lost
  | .degraded => c.degraded
  | .group => c.group

/-- The policy makes a FAULTED member a contained source (Table 9-2). -/
def Policy.contains (p : Policy) : Bool := p != .notify

/-- The policy makes a FAULTED member drive no slot (Table 9-2). -/
def Policy.isolates (p : Policy) : Bool := p == .isolate || p == .isolateGroup

/-- The containment group of a line (R1). -/
def State.groupOf (s : State) (n : Line) : Fin 4 := (s.lines.get n).config.group

/-- The policy of a line's containment group (R153). -/
def State.policyOf (s : State) (n : Line) : Policy := s.policies.get (s.groupOf n)

/-- The line's fault state is FAULTED (R151). -/
def State.faulted (s : State) (n : Line) : Bool := (s.causes.get n).faulted

/-- The isolating condition of a line (R123). -/
def State.isolating (s : State) (n : Line) : Bool := s.faulted n && (s.policyOf n).isolates

/-- The line is a contained source (R63). -/
def State.containedSource (s : State) (x : Line) : Bool := s.faulted x && (s.policyOf x).contains

/-- Another line of the line's group holds an own cause (R154, R157). -/
def State.otherOwnCause (s : State) (n : Line) : Bool :=
  allLines.any fun m => m != n && s.groupOf m == s.groupOf n && (s.causes.get m).own

/-! ### Banks and arbiter -/

/-- The bank that is not named (R94). -/
def BankName.other : BankName → BankName
  | .A => .B
  | .B => .A

/-- The staged bank is always the one that is not active (R94). -/
def BankControl.staged (b : BankControl) : BankName := b.active.other

/-- The grant is a host operation. -/
def Grant.isHost : Grant → Bool
  | .load _ _ _ => false
  | .hostRead _ => true
  | .hostWrite _ => true
  | .copyStep _ _ => false

/-- A table-port operation is in flight: its claim waits or holds the port (R176, R185). -/
def Arbiter.hostInFlight (a : Arbiter) : Bool := a.hostClaim.isSome || a.grant.any Grant.isHost

/-- The host bus is stretched, RDY inactive (R176). -/
def State.stretched (s : State) : Bool := s.arb.hostInFlight

/-- The output RDY, true for active (R176). -/
def State.rdy (s : State) : Bool := !s.stretched

/-! ### Interrupt status -/

/-- EVQ_NONEMPTY (R172). -/
def State.evqNonempty (s : State) : Bool := !s.evq.records.isEmpty

/-- The FAULT status: any line is FAULTED (R160). -/
def State.anyFault (s : State) : Bool := allLines.any fun n => s.faulted n

/-- CAPTURE_READY (R141). -/
def State.captureReady (s : State) : Bool := !s.host.captures.isEmpty

/-- INSERT_READY: the host line runs and no pending frame exists (R137). -/
def State.insertReady (s : State) : Bool := s.running hostLine && s.host.insertPending.isNone

/-- A word whose bit is 1 exactly where named. -/
def bitAt (b : Bool) (i : Nat) : Nat := b.toNat * 2 ^ i

/-- The bits of IRQ_STATUS and IRQ_ENABLE that exist: 3-0 and 11-8 (Table 11-2). -/
def irqMask : Word := 0x0F0F

/-- IRQ_STATUS (R172, Table 11-2). -/
def State.irqStatus (s : State) : Word :=
  BitVec.ofNat 16 (bitAt s.evqNonempty 0 + bitAt s.anyFault 1 + bitAt s.captureReady 2 + bitAt s.insertReady 3
    + bitAt s.irq.evqLoss 8 + bitAt s.irq.commitDone 9 + bitAt s.irq.copyDone 10 + bitAt s.irq.tpTimeout 11)

/-- IRQ_N is asserted (low) while some status bit and its enable are both set (R174). -/
def State.irqAsserted (s : State) : Bool := s.irqStatus &&& s.irq.enable != 0

end Sys2Proof.Machine
end

