-- ==== Sys2Proof/Machine/Operands.lean ====
section
/-! DEFINITION. The layouts of 11 section 11.5: the fields of map entries, line configuration records, line status records,
event records and check words, in both directions, with the range checks of R2 and R81. -/

namespace Sys2Proof.Machine

/-- Lines and physical lines: the line as a physical line, none for the host line. -/
def physLine? (n : Line) : Option PhysLine := if h : n.val < 8 then some ⟨n.val, h⟩ else none

/-! ### Map entries (Table 11-5) -/

/-- Kind codes; 3 names no kind (R187). -/
def EntryKind.ofCode? : Nat → Option EntryKind
  | 0 => some .idle
  | 1 => some .constant
  | 2 => some .route
  | _ => none

def EntryKind.code : EntryKind → Nat
  | .idle => 0
  | .constant => 1
  | .route => 2

def EntryPolicy.code : EntryPolicy → Nat
  | .hold => 0
  | .fill => 1

/-- The entry in two data words, none when a field check of R81 fails. -/
def MapEntry.decode? (w0 w1 : Word) : Option MapEntry :=
  match EntryKind.ofCode? (w0.field 0 2) with
  | none => none
  | some kind =>
    if hl : w0.field 4 4 < 9 then
      if hs : w0.field 8 7 < 64 then
        if w0.field 4 4 = 8 ∧ 15 < w0.field 8 7 then none
        else some {
          kind := kind
          policy := if w0.bit 2 then .fill else .hold
          sourceLine := ⟨w0.field 4 4, hl⟩
          sourceSlot := ⟨w0.field 8 7, hs⟩
          value := w1 }
      else none
    else none

/-- Word 0 of an entry. -/
def MapEntry.word0 (e : MapEntry) : Word :=
  BitVec.ofNat 16 (e.kind.code + e.policy.code * 2 ^ 2 + e.sourceLine.val * 2 ^ 4 + e.sourceSlot.val * 2 ^ 8)

/-- Word 1 of an entry. -/
def MapEntry.word1 (e : MapEntry) : Word := e.value

/-! ### Line configuration records (Table 11-6) -/

/-- Timing source codes; 3 names no source (R187). -/
def Timing.ofCode? : Nat → Option Timing
  | 0 => some .external
  | 1 => some (.fg 0)
  | 2 => some (.fg 1)
  | _ => none

def Timing.code : Timing → Nat
  | .external => 0
  | .fg g => g.val + 1

/-- The ranges of Table 1-1 for the record of line `n` (R2). -/
def LineConfig.inRange (n : Line) (c : LineConfig) : Bool :=
  (if n = hostLine then decide (1 ≤ c.slotCount) && decide (c.slotCount ≤ 16) && c.timing != .external && !c.checkEnable
   else decide (2 ≤ c.slotCount) && decide (c.slotCount ≤ 64))
    && decide (1 ≤ c.bitDivider) && decide (c.bitDivider ≤ 64) && decide (c.damageThreshold ≤ 255)

/-- The fields of three data words, none when the timing source code names no source. -/
def LineConfig.fields? (w0 w1 w2 : Word) : Option LineConfig :=
  (Timing.ofCode? (w0.field 8 2)).map fun t => {
    slotCount := w0.field 0 7
    timing := t
    bitDivider := w1.field 0 7
    checkEnable := w0.bit 12
    group := ⟨w1.field 8 2, Nat.mod_lt _ (by decide)⟩
    damageThreshold := w2.field 0 8
    autoRehunt := w1.bit 12 }

/-- The record of line `n` in three data words, none when a field check of R2 fails. -/
def LineConfig.decode? (n : Line) (w0 w1 w2 : Word) : Option LineConfig :=
  (LineConfig.fields? w0 w1 w2).filter (LineConfig.inRange n)

def LineConfig.word0 (c : LineConfig) : Word :=
  BitVec.ofNat 16 (c.slotCount + c.timing.code * 2 ^ 8 + bitAt c.checkEnable 12)

def LineConfig.word1 (c : LineConfig) : Word :=
  BitVec.ofNat 16 (c.bitDivider + c.group.val * 2 ^ 8 + bitAt c.autoRehunt 12)

def LineConfig.word2 (c : LineConfig) : Word := BitVec.ofNat 16 c.damageThreshold

/-- The two records differ in a timing field (R1, R2). -/
def LineConfig.timingDiffers (a b : LineConfig) : Bool :=
  a.slotCount != b.slotCount || a.timing != b.timing || a.bitDivider != b.bitDivider || a.checkEnable != b.checkEnable

/-! ### Line status records (Table 11-7) -/

def Receiver.code : Receiver → Nat
  | .disabled => 0
  | .hunt => 1
  | .verify => 2
  | .locked => 3
  | .lost => 4

def BankName.code : BankName → Nat
  | .A => 0
  | .B => 1

def BufferState.code : BufferState → Nat
  | .free => 0
  | .filling => 1
  | .ready => 2
  | .retired => 3

/-- Word 0 of the line status record. -/
def State.statusWord0 (s : State) (n : Line) : Word :=
  let l := s.lines.get n
  let c := s.causes.get n
  BitVec.ofNat 16 (l.receiver.code + l.verifyCount * 2 ^ 4 + bitAt l.running 6 + bitAt c.faulted 8 + bitAt c.lost 9
    + bitAt c.degraded 10 + bitAt c.group 11 + (s.bc.current.get n).code * 2 ^ 12
    + bitAt (s.bc.adoptionSet.get n) 13 + bitAt (s.stores.get n).newest.isSome 15)

/-- Word 1: the low 16 bits of the newest ready frame's number, 0 when there is none (R54). -/
def State.statusWord1 (s : State) (n : Line) : Word :=
  match (s.stores.get n).newest with
  | some (_, f) => f.setWidth 16
  | none => 0

/-- The byte of a buffer in words 2 and 3. The damaged flag and the holder count of a FREE or FILLING buffer read 0
(R54). -/
def Buffer.statusByte (b : Buffer) : Nat :=
  b.state.code + (if b.state = .free ∨ b.state = .filling then 0 else bitAt b.damaged 2 + b.holders.card * 2 ^ 4)

/-- Word 2: buffers 0 and 1. -/
def State.statusWord2 (s : State) (n : Line) : Word :=
  let b := (s.stores.get n).buffers
  BitVec.ofNat 16 ((b.get 0).statusByte + (b.get 1).statusByte * 2 ^ 8)

/-- Word 3: buffers 2 and 3. -/
def State.statusWord3 (s : State) (n : Line) : Word :=
  let b := (s.stores.get n).buffers
  BitVec.ofNat 16 ((b.get 2).statusByte + (b.get 3).statusByte * 2 ^ 8)

/-! ### Event records (Table 11-8) -/

def EventKind.code : EventKind → Nat
  | .sync => 1
  | .fault => 2
  | .release => 3
  | .slipRepeat => 4
  | .slipDrop => 5
  | .overrun => 6
  | .commitDone => 7
  | .copyDone => 8
  | .insertUnderrun => 9
  | .captureOverflow => 10

/-- FAULT details (Table 11-8). -/
def Cause.code : Cause → Word
  | .lost => 1
  | .degraded => 2
  | .group => 3

/-- The four words of an event record. -/
def EventRecord.words (r : EventRecord) : Tab Word 4 :=
  #v[BitVec.ofNat 16 (r.kind.code + r.lineA.val * 2 ^ 4 + r.lineB.val * 2 ^ 8), r.count, r.detail, r.stamp]

/-! ### Check words (Table 11-9) -/

/-- The check word with a counter and a sum. -/
def checkWord (counter : BitVec 4) (sum : Nat) : Word := BitVec.ofNat 16 (counter.toNat * 2 ^ 12 + sum % 2 ^ 12)

/-- The counter field of a received check word. -/
def checkCounter (w : Word) : BitVec 4 := BitVec.ofNat 4 (w.field 12 4)

/-- The sum field of a received check word. -/
def checkSumField (w : Word) : Nat := w.field 0 12

/-- The sum of words, each as an unsigned number, modulo 4096 (R24). -/
def frameSum (ws : List Word) : Nat := (ws.foldl (fun t w => t + w.toNat) 0) % 2 ^ 12

/-! ### Register codes (Table 11-2) -/

def PairState.code : PairState → Nat
  | .stable => 0
  | .commitPending => 1
  | .copying => 2

def CommandResult.code : CommandResult → Nat
  | .none => 0
  | .ok => 1
  | .busy => 2
  | .stagedIncomplete => 3

def Policy.code : Policy → Nat
  | .notify => 0
  | .silence => 1
  | .isolate => 2
  | .isolateGroup => 3

/-- Every encoding names a policy (R155). -/
def Policy.ofCode : Nat → Policy
  | 0 => .notify
  | 1 => .silence
  | 2 => .isolate
  | _ => .isolateGroup

def TpResult.code : TpResult → Nat
  | .ok => 0
  | .rejectField => 1
  | .rejectLive => 2
  | .rejectBusy => 3
  | .readOnly => 4
  | .noTable => 5
  | .noEntry => 6
  | .timeout => 7

/-- The policies that a word written to GROUP_POLICY gives (Table 11-2). -/
def policiesOf (value : Word) : Tab Policy 4 := Tab.of fun g => Policy.ofCode (value.field (2 * g.val) 2)

/-- Size of a table of the table port (Table 11-3); 0 for a table id that names none. -/
def tableSize (id : BitVec 4) : Nat :=
  if id.toNat ≤ 1 then 528 else if id.toNat ≤ 3 then 9 else if id.toNat = 4 then 72 else 0

/-- Record length in words (Table 11-3). -/
def recordLength (id : BitVec 4) : Nat :=
  if id.toNat ≤ 1 then 2 else if id.toNat = 2 then 3 else if id.toNat = 3 then 4 else if id.toNat = 4 then 1 else 0

/-- The word of a set of lines: bit n for line n (Table 11-2). -/
def lineSetWord (l : LineSet) : Word :=
  BitVec.ofNat 16 ((allLines.map fun n => bitAt (l.get n) n.val).foldl (· + ·) 0)

/-- The word of a list of flags, flag s at bit s. -/
def flagsWord : List Bool → Nat
  | [] => 0
  | b :: bs => b.toNat + 2 * flagsWord bs

/-! ### Received bits (R3, R4) -/

/-- The word of sixteen bits, most significant first. -/
def wordOfBits (bs : List Bool) : Word := BitVec.ofNat 16 (bs.foldl (fun t b => 2 * t + b.toNat) 0)

/-- The first `k` samples; a missing sample reads 0 (log 5). -/
def takeBits : Nat → List Bool → List Bool
  | 0, _ => []
  | k + 1, [] => false :: takeBits k []
  | k + 1, b :: bs => b :: takeBits k bs

/-- The word of slot `i`, formed from the bits sampled in its sixteen bit clocks. -/
def slotWord (samples : List Bool) (i : Nat) : Word :=
  wordOfBits (takeBits Config.slotBits (samples.drop (Config.slotBits * i)))

/-- The words of a frame of `k` slots that was received in full. -/
def fullFrame (k : Nat) (samples : List Bool) : List Word := (List.range k).map (slotWord samples)

/-- The words of a frame of `k` slots cut short: a slot received in full holds its word, the slot in which the arrival
fell and every later slot hold 0 (R42). -/
def shortFrame (k : Nat) (samples : List Bool) : List Word :=
  (List.range k).map fun i => if Config.slotBits * (i + 1) ≤ samples.length then slotWord samples i else 0

end Sys2Proof.Machine
end

