-- ==== Sys2Proof/Machine/Ops.lean ====
section
/-! DEFINITION. Operations shared by the commands: counters, the event queue, fault causes with suspension and propagation,
release, bank adoption, and the host bus while RDY is inactive. -/

namespace Sys2Proof.Machine

/-! ### Counters (Chapter 9) -/

/-- One more, held at 65535 (R145, R166). -/
def satInc (w : Word) : Word := if w = 0xFFFF then w else w + 1

def CHECK_ERRORS : Fin 8 := 0
def SEQ_GAPS : Fin 8 := 1
def SYNC_ERRORS : Fin 8 := 2
/-- Counter 2 of the host line (Table 9-1). -/
def INSERT_UNDERRUNS : Fin 8 := 2
def OVERRUNS : Fin 8 := 3
def REPEAT_SLIPS : Fin 8 := 4
def DROP_SLIPS : Fin 8 := 5
def DAMAGED_FRAMES : Fin 8 := 6
def SYNC_LOSSES : Fin 8 := 7
/-- Counter 7 of the host line (Table 9-1). -/
def CAPTURE_OVERFLOWS : Fin 8 := 7

/-- Counter `k` of line `n`. -/
def State.counter (s : State) (n : Line) (k : Fin 8) : Word := (s.counters.get n).get k

/-- One increment of counter `k` of line `n` (R145, R146). -/
def countUp (n : Line) (k : Fin 8) (s : State) : State :=
  s.withCounters (s.counters.put n ((s.counters.get n).put k (satInc ((s.counters.get n).get k))))

/-- An increment that is made only when `b`. -/
def countUpIf (b : Bool) (n : Line) (k : Fin 8) (s : State) : State := if b then countUp n k s else s

/-! ### Event queue (Chapter 10) -/

/-- The stamp of a record of line `n`: the low 16 bits of its line frame count (R164). -/
def State.stampOf (s : State) (n : Line) : Word := (s.stores.get n).frameCount.setWidth 16

/-- Append a record, or lose it when the list holds 32 (R165, R167). -/
def appendRecord (r : EventRecord) (s : State) : State :=
  if s.evq.records.length < Config.eventCapacity then
    s.withEvq { s.evq with records := s.evq.records ++ [r] }
  else
    (s.withEvq { s.evq with lost := if s.evq.lost = 0xFF then s.evq.lost else s.evq.lost + 1 }).withIrq
      { s.irq with evqLoss := true }

/-- An event of line `n` that is no slip (Table 10-2). -/
def sendEvent (kind : EventKind) (n : Line) (detail : Word) (s : State) : State :=
  appendRecord ⟨kind, n, 0, 1, detail, s.stampOf n⟩ s

/-- An event of no line: COMMIT_DONE and COPY_DONE, with line A, line B and stamp 0 (Table 10-2). -/
def sendBankEvent (kind : EventKind) (detail : Word) (s : State) : State :=
  appendRecord ⟨kind, 0, 0, 1, detail, 0⟩ s

/-- The record is the slip record of the kind for the pair (y, x) (R166). -/
def EventRecord.isSlipOf (r : EventRecord) (kind : EventKind) (y x : Line) : Bool :=
  r.kind == kind && r.lineA == y && r.lineB == x

/-- The sum of a detail and a number of frames, held at 65535 (R66, R166). -/
def addDetail (d : Word) (skipped : Nat) : Word := BitVec.ofNat 16 (min (d.toNat + skipped) 65535)

/-- A merge into a slip record (R166). -/
def EventRecord.merge (r : EventRecord) (skipped : Nat) : EventRecord :=
  { r with count := satInc r.count, detail := addDetail r.detail skipped }

/-- A slip event of reader (y, x): merged into the record of its kind and pair, else appended or lost (R165, R166).
`skipped` is 0 for a repeat. -/
def sendSlip (kind : EventKind) (y x : Line) (skipped : Nat) (s : State) : State :=
  if s.evq.records.any (fun r => r.isSlipOf kind y x) then
    s.withEvq { s.evq with
      records := s.evq.records.map fun r => if r.isSlipOf kind y x then r.merge skipped else r }
  else appendRecord ⟨kind, y, x, 1, addDetail 0 skipped, s.stampOf y⟩ s

/-! ### The records of one event (R165) -/

/-- Record `r`, sent next after `prev`, follows it in the chain that one occurrence sends: the FAULT of a LOST after its SYNC, and
the FAULT of a GROUP after the FAULT that propagates it (R152, R154, R165); the CAPTURE_OVERFLOW of a boundary at the host line
block after its INSERT_UNDERRUN, since the block hands over first and captures then, as one event (R128). -/
def EventRecord.continues (prev r : EventRecord) : Bool :=
  (r.kind == .fault && r.detail != 2) || (prev.kind == .insertUnderrun && r.kind == .captureOverflow)

/-- The records of one event, in the order in which the blocks send them, cut into their chains (R165). -/
def chains : List EventRecord → List (List EventRecord)
  | [] => []
  | r :: rs =>
    match rs, chains rs with
    | q :: _, c :: cs => if r.continues q then (r :: c) :: cs else [r] :: c :: cs
    | _, cs => [r] :: cs

/-- The records in the order in which the queue takes them. Each turn takes the next record of the chain it numbers, and
nothing where that chain has none; the records that no turn takes follow in the order in which they were sent. Every order
that keeps each chain is that of some turns (R165, log 6). -/
def interleave : List Nat → List (List EventRecord) → List EventRecord
  | [], cs => cs.flatten
  | k :: ks, cs =>
    match cs[k]? with
    | some (r :: rest) => r :: interleave ks (cs.set k rest)
    | some [] => interleave ks cs
    | none => interleave ks cs

/-- An event of the lines' timing whose records the queue takes in the order that `turns` gives: `f` is the event, its records
are gathered on an empty list, which has room for all that one event sends, and then taken one by one (R165). -/
def inTurn (turns : List Nat) (f : State → State) (s : State) : State :=
  let t := f (s.withEvq { s.evq with records := [] })
  (interleave turns (chains t.evq.records)).foldl (fun u r => appendRecord r u) (t.withEvq s.evq)

/-! ### Causes, suspension, propagation and release (Chapters 7 and 9) -/

/-- The suspension flag of line `n` is set, and the span of its frame in progress includes that moment (R123, R127). -/
def suspend (n : Line) (s : State) : State :=
  s.withTxas (s.txas.put n { s.txas.get n with suspended := true, spanSuspended := true })

/-- The suspension flag is set at the moment the isolating condition holds (R123). -/
def suspendIfIsolating (n : Line) (s : State) : State := if s.isolating n then suspend n s else s

/-- The cause set with a cause added. -/
def CauseSet.add (c : CauseSet) : Cause → CauseSet
  | .lost => { c with lost := true }
  | .degraded => { c with degraded := true }
  | .group => { c with group := true }

/-- A cause is added to a line: nothing when it is present, else it joins the set, a FAULT event is sent and the isolating
condition takes effect at once (R152). -/
def addCause (n : Line) (c : Cause) (s : State) : State :=
  if (s.causes.get n).has c then s
  else suspendIfIsolating n (sendEvent .fault n c.code (s.withCauses (s.causes.put n ((s.causes.get n).add c))))

/-- GROUP is added to the lines that `gains` names, in increasing order of number (R154). -/
def giveGroup (gains : Line → Bool) (s : State) : State :=
  allLines.foldl (fun s m => if gains m then addCause m .group s else s) s

/-- The other lines of line `n`'s group. -/
def State.otherMember (s : State) (n m : Line) : Bool := m != n && s.groupOf m == s.groupOf n

/-- An own cause is added to a line and, under ISOLATE_GROUP, gives GROUP to every other line of its group (R152, R154). -/
def addOwnCause (n : Line) (c : Cause) (s : State) : State :=
  if (s.causes.get n).has c then s
  else if s.policyOf n = .isolateGroup then giveGroup (fun m => s.otherMember n m) (addCause n c s)
  else addCause n c s

/-- A FAULTED line is released: its cause set is emptied, a RELEASE event is sent, and a receiver in LOST goes to HUNT
(R157 step 2). -/
def releaseLine (n : Line) (s : State) : State :=
  let l := s.lines.get n
  sendEvent .release n 0
    ((s.withCauses (s.causes.put n .empty)).withLines
      (s.lines.put n (if l.receiver = .lost then
        { l with receiver := .hunt, verifyCount := 0, timerArmed := false } else l)))

/-- The named lines are released together, and a released line gains GROUP again where its group's policy is
ISOLATE_GROUP and another line of the group holds an own cause (R157). -/
def releaseLines (named : Line → Bool) (s : State) : State :=
  let released : Line → Bool := fun n => named n && s.faulted n
  let s1 := allLines.foldl (fun t n => if released n then releaseLine n t else t) s
  giveGroup (fun n => released n && s1.policyOf n == .isolateGroup && s1.otherOwnCause n) s1

/-! ### Banks, adoption and withdrawal of loads (Chapters 5 and 6) -/

/-- The entry at an index. An index that is not listed reads as the all-zero entry (R79). -/
def Bank.read : Bank → Nat → MapEntry
  | [], _ => .zero
  | (k, e) :: r, i => if k = i then e else Bank.read r i

/-- The bank with the entry at an index replaced, in canonical form. -/
def Bank.write : Bank → Nat → MapEntry → Bank
  | [], i, e => if e = .zero then [] else [(i, e)]
  | (k, f) :: r, i, e =>
    if i < k then (if e = .zero then (k, f) :: r else (i, e) :: (k, f) :: r)
    else if i = k then (if e = .zero then r else (i, e) :: r)
    else (k, f) :: Bank.write r i e

/-- The canonical form above an index: indexes rise strictly from it, and no listed entry is all zero. -/
def Bank.wfFrom : Nat → Bank → Bool
  | _, [] => true
  | lo, (k, e) :: r => decide (lo ≤ k) && e != .zero && Bank.wfFrom (k + 1) r

/-- The canonical form of a bank: indexes strictly rising, no listed entry all zero. -/
def Bank.wf (b : Bank) : Bool := Bank.wfFrom 0 b

/-- A bank by its name. -/
def State.bank (s : State) : BankName → Bank
  | .A => s.bankA
  | .B => s.bankB

/-- The state with a bank replaced. -/
def State.withBank (s : State) (name : BankName) (b : Bank) : State :=
  match name with
  | .A => s.withBankA b
  | .B => s.withBankB b

/-- The index of slot 0 of a line: line x 64, for the host line 512 (R76). -/
def mapBase (n : Line) : Nat := n.val * 64

/-- The entries that a load of line `n` reads from a bank (R84). -/
def loadProgram (b : Bank) (n : Line) (slots : Nat) : List MapEntry :=
  (List.range slots).map fun i => Bank.read b (mapBase n + i)

/-- A commit completes: the pair is STABLE, a COMMIT_DONE event is sent and the sticky status set (R104). -/
def completeCommit (s : State) : State :=
  let t := sendBankEvent .commitDone (BitVec.ofNat 16 s.bc.active.code) (s.withBc { s.bc with pair := .stable })
  t.withIrq { t.irq with commitDone := true }

/-- A line in the adoption set adopts the active bank and leaves the set, and the last adoption completes the commit
(R100, R101). A line outside the set is left as it is. -/
def adopt (n : Line) (s : State) : State :=
  if s.bc.adoptionSet.get n then
    let set := s.bc.adoptionSet.erase n
    let t := s.withBc { s.bc with current := s.bc.current.put n s.bc.active, adoptionSet := set }
    if set.isEmpty then completeCommit t else t
  else s

/-- The grant after line `n` has stopped or reached its next boundary: a load of `n` that is in progress completes, and
its slot program is discarded (R85). -/
def Grant.killLoad (n : Line) : Grant → Grant
  | .load m p live => .load m p (live && m != n)
  | .hostRead e => .hostRead e
  | .hostWrite e => .hostWrite e
  | .copyStep i live => .copyStep i live

/-- The load claims of a line that stops: a waiting claim is withdrawn, a granted load loses its use (R85). -/
def withdrawLoad (n : Line) (s : State) : State :=
  s.withArb { s.arb with
    loadQueue := s.arb.loadQueue.filter (· != n)
    grant := s.arb.grant.map (Grant.killLoad n) }

/-! ### Host bus accesses (R176) -/

/-- A host access that is a command: taken at once while RDY is active; begun while RDY is inactive it waits on the bus
and is taken when the operation in flight has ended (R176). -/
def whenReady (c : Instr) (f : State → State) (s : State) : State :=
  if s.stretched then s.withBus { s.bus with held := s.bus.held ++ [c] } else f s

/-- The word a read drives on D[15:0]. -/
def driveData (w : Word) (s : State) : State := s.withBus { s.bus with readData := w }

end Sys2Proof.Machine
end

