-- ==== Sys2Proof/Machine/EventCommands.lean ====
section
/-! DEFINITION. The host side of the event queue and of the interrupt logic (Chapter 10). -/

namespace Sys2Proof.Machine

/-- A write to IRQ_STATUS clears each sticky bit written 1 (R173). -/
def irqStatusWrite (value : Word) (s : State) : State :=
  s.withIrq { s.irq with
    evqLoss := s.irq.evqLoss && !value.bit 8
    commitDone := s.irq.commitDone && !value.bit 9
    copyDone := s.irq.copyDone && !value.bit 10
    tpTimeout := s.irq.tpTimeout && !value.bit 11 }

/-- IRQ_STATUS_WRITE (R173). -/
def execIrqStatusWrite (value : Word) (s : State) : Host.Outcome State Fault Refusal :=
  .next (whenReady (.irqStatusWrite value) (irqStatusWrite value) s)

/-- A write to IRQ_ENABLE replaces all eight enables (R174). -/
def irqEnableWrite (value : Word) (s : State) : State := s.withIrq { s.irq with enable := value &&& irqMask }

/-- IRQ_ENABLE_WRITE (R174). -/
def execIrqEnableWrite (value : Word) (s : State) : Host.Outcome State Fault Refusal :=
  .next (whenReady (.irqEnableWrite value) (irqEnableWrite value) s)

/-- A write to EVQ_COUNT, whatever the value, sets the lost count to 0 (R171). -/
def evqCountWrite (s : State) : State := s.withEvq { s.evq with lost := 0 }

/-- EVQ_COUNT_WRITE (R171). -/
def execEvqCountWrite (value : Word) (s : State) : Host.Outcome State Fault Refusal :=
  .next (whenReady (.evqCountWrite value) evqCountWrite s)

/-- The snapshot of the head record: four words of zero when the list is empty (R168). -/
def EventQueue.snapshot (q : EventQueue) : Tab Word 4 :=
  match q.records with
  | [] => Tab.all 4 0
  | r :: _ => r.words

/-- A read of EVQ_HEAD0 latches the head record and returns its word 0 (R168). -/
def evqHead0Read (s : State) : State :=
  driveData (s.evq.snapshot.get 0) (s.withEvq { s.evq with latch := s.evq.snapshot })

/-- EVQ_HEAD0_READ (R168). -/
def execEvqHead0Read (s : State) : Host.Outcome State Fault Refusal := .next (whenReady .evqHead0Read evqHead0Read s)

/-- A write to EVQ_POP, whatever the value, removes the head record, and has no effect on an empty list (R169). DESIGN CHOICE
(log 22): so a pop and an append that fall together on an empty list show their order, one record or none, although R170
says of a list that is not full that it has no effect on the state reached. -/
def evqPop (s : State) : State := s.withEvq { s.evq with records := s.evq.records.tail }

/-- EVQ_POP (R169). -/
def execEvqPop (value : Word) (s : State) : Host.Outcome State Fault Refusal :=
  .next (whenReady (.evqPop value) evqPop s)

end Sys2Proof.Machine
end

