-- ==== Sys2Proof/Machine/StoreOps.lean ====
section
/-! DEFINITION. The receive frame stores (Chapter 3): completion, acquisition, overrun, insert placement, emptying, and the
holds that output lines take and release. -/

namespace Sys2Proof.Machine

/-! ### Buffers -/

/-- A buffer that becomes FREE or FILLING has no frame number, a clear damaged flag and no holders (R36, R39). Its words
stay until they are overwritten (R41). -/
def Buffer.become (b : Buffer) (st : BufferState) : Buffer :=
  { b with state := st, number := none, damaged := false, holders := LineSet.empty }

/-- Line `y` leaves the holder set; a RETIRED buffer whose last holder leaves becomes FREE (R40). -/
def Buffer.release (y : Line) (b : Buffer) : Buffer :=
  if b.holders.get y then
    if b.state = .retired ∧ (b.holders.erase y).isEmpty then b.become .free
    else { b with holders := b.holders.erase y }
  else b

/-- Line `y` joins the holder set (R39). -/
def Buffer.hold (y : Line) (b : Buffer) : Buffer := { b with holders := b.holders.insert y }

/-- Emptying (R50). -/
def Buffer.emptied (b : Buffer) : Buffer :=
  match b.state with
  | .free => b
  | .filling => b.become .free
  | .ready => if b.holders.isEmpty then b.become .free else { b with state := .retired }
  | .retired => b

/-- The words of a buffer with the first ones replaced. -/
def overwrite (new old : List Word) : List Word := new ++ old.drop new.length

/-- A buffer that takes a completed frame becomes READY without holders (R44, R48). -/
def Buffer.take (b : Buffer) (number : BitVec 32) (damaged : Bool) (frame : List Word) : Buffer where
  state := .ready
  number := some number
  damaged := damaged
  holders := LineSet.empty
  slotCount := frame.length
  words := overwrite frame b.words

/-! ### Stores -/

/-- The store with one buffer changed. -/
def Store.modify (st : Store) (i : Fin 4) (f : Buffer → Buffer) : Store :=
  { st with buffers := st.buffers.put i (f (st.buffers.get i)) }

/-- The READY buffers that may be reused: no holder, and not the newest ready frame (R45 search 2). -/
def Store.reusable (st : Store) : List (Fin 4 × BitVec 32) :=
  st.readyFrames.filter fun f => (st.buffers.get f.1).holders.isEmpty && st.newest != some f

/-- The buffer chosen for a new frame: the FREE buffer of lowest index, else the reusable READY buffer with the oldest
number, else none (R45). -/
def Store.choose (st : Store) : Option (Fin 4) :=
  match [0, 1, 2, 3].find? fun i => (st.buffers.get i).state == .free with
  | some i => some i
  | none =>
    (st.reusable.find? fun f => st.reusable.all fun g => g.1 == f.1 || newer g.2 f.2).map fun f => f.1

/-- The completion step (R44): the FILLING buffer becomes READY with the next frame number, or the discarded frame takes
a number and its discard ends; with neither, nothing. -/
def Store.complete (st : Store) (damaged : Bool) (frame : List Word) : Store :=
  match st.filling with
  | some i =>
    { st.modify i (fun b => b.take (st.frameCount + 1) damaged frame) with frameCount := st.frameCount + 1 }
  | none =>
    if st.discarding then { st with frameCount := st.frameCount + 1, discarding := false } else st

/-- Emptying (R50): every buffer by its state and holders; a discard in progress ends without a number, and the overrun
run indicator is cleared. The line frame count is kept. -/
def Store.emptied (st : Store) : Store where
  buffers := Tab.of fun i => (st.buffers.get i).emptied
  frameCount := st.frameCount
  discarding := false
  overrunRun := false

/-- The store after an exchange restart (R52): every buffer FREE, count 0, indications clear; words kept. -/
def Store.restarted (st : Store) : Store where
  buffers := Tab.of fun i => (st.buffers.get i).become .free
  frameCount := 0
  discarding := false
  overrunRun := false

/-- Line `y` leaves every holder set of the store (R40). -/
def Store.release (y : Line) (st : Store) : Store :=
  { st with buffers := Tab.of fun i => (st.buffers.get i).release y }

/-! ### Store events of the exchange -/

/-- The state with one store changed. -/
def modifyStore (n : Line) (f : Store → Store) (s : State) : State := s.withStores (s.stores.put n (f (s.stores.get n)))

/-- A discard for want of a buffer: OVERRUNS counts it, and the first of a run sends an OVERRUN event (R46, R49). -/
def overrun (n : Line) (s : State) : State :=
  let t := countUp n OVERRUNS s
  let u := if (s.stores.get n).overrunRun then t else sendEvent .overrun n 0 t
  modifyStore n (fun st => { st with overrunRun := true }) u

/-- The acquisition step of a physical line (R45, R46). -/
def acquire (n : Line) (s : State) : State :=
  match (s.stores.get n).choose with
  | some i =>
    modifyStore n (fun st => { st.modify i (fun b => b.become .filling) with overrunRun := false }) s
  | none => modifyStore n (fun st => { st with discarding := true }) (overrun n s)

/-- The placement of an insert frame in the host line's store (R48), or its discard (R49). Either way the frame takes a
number. -/
def placeInsert (f : InsertFrame) (s : State) : State :=
  match (s.stores.get hostLine).choose with
  | some i =>
    modifyStore hostLine (fun st =>
      { st.modify i (fun b => b.take (st.frameCount + 1) false f.words) with
        frameCount := st.frameCount + 1, overrunRun := false }) s
  | none => modifyStore hostLine (fun st => { st with frameCount := st.frameCount + 1 }) (overrun hostLine s)

/-! ### Holds (R39, R40, R60, R71) -/

/-- The reader after its line's release at a boundary: it holds nothing, and its cursor is NONE when the buffer it held was
RETIRED (R60). -/
def Reader.released (r : Reader) (st : Store) : Reader :=
  match r.held with
  | none => r
  | some i => ⟨if (st.buffers.get i).state = .retired then none else r.cursor, none⟩

/-- At a boundary line `y` releases every buffer it holds (R60), in all nine stores at one place (log 23). -/
def releaseHolds (y : Line) (s : State) : State :=
  (s.withReaders (s.readers.put y (Tab.of fun x => ((s.readers.get y).get x).released (s.stores.get x)))).withStores
    (Tab.of fun x => (s.stores.get x).release y)

/-- Line `y` stops: it releases every buffer it holds and all nine of its cursors are NONE (R71). -/
def dropHolds (y : Line) (s : State) : State :=
  (s.withReaders (s.readers.put y (Tab.all 9 .reset))).withStores (Tab.of fun x => (s.stores.get x).release y)

end Sys2Proof.Machine
end

