-- ==== Sys2Proof/Machine/BoundaryOps.lean ====
section
/-! DEFINITION. What happens to a line at a frame boundary, when it locks, when it loses sync and when it stops running
(Chapters 1, 2, 3, 7, 8 and 9). The records are sent in the order written here; the queue takes those of one event in the
order of its turns (R165, log 6). -/

namespace Sys2Proof.Machine

/-! ### The frame check (Chapter 2) -/

/-- The verdict on a completed receive frame (Table 2-1). -/
structure Verdict where
  damaged : Bool
  checkError : Bool
  seqGap : Bool
  ref : Option (BitVec 4)
deriving DecidableEq, Repr

/-- The judgement of a completed frame (R30, R31, R33): a short frame is damaged and not checked; a full frame of a checked
line has its sum and its counter compared; any other full frame is undamaged. -/
def judge (l : LineUnit) (frame : List Word) (short : Bool) : Verdict :=
  if short then ⟨true, false, false, l.rxRef⟩
  else if l.config.checkEnable then
    let check := frame.headD 0
    let bad := frameSum (frame.drop 1) != checkSumField check
    let gap := match l.rxRef with
      | none => false
      | some r => checkCounter check != r + 1
    ⟨bad, bad, gap, some (checkCounter check)⟩
  else ⟨false, false, false, l.rxRef⟩

/-- The counters and the receive reference after a verdict (R31, R33). -/
def report (n : Line) (v : Verdict) (s : State) : State :=
  countUpIf v.damaged n DAMAGED_FRAMES
    (countUpIf v.seqGap n SEQ_GAPS
      (countUpIf v.checkError n CHECK_ERRORS
        (s.withLines (s.lines.put n { s.lines.get n with rxRef := v.ref }))))

/-! ### The damage window (R148, R149) -/

/-- The counts after one more frame. -/
def Window.advance (w : Window) (damaged : Bool) : Window :=
  { w with frames := w.frames + 1, damaged := w.damaged + damaged.toNat }

/-- The threshold test (R149). -/
def Window.reaches (w : Window) (threshold : Nat) : Bool :=
  threshold != 0 && decide (threshold ≤ w.damaged) && !w.reported

/-- The window closes after 256 frames (R148). -/
def Window.close (w : Window) : Window := if w.frames = Config.windowFrames then .reset else w

/-- The damage window of line `n` counts a completed frame, and DEGRADED is added when it reaches the threshold (R148,
R149). -/
def advanceWindow (n : Line) (damaged : Bool) (s : State) : State :=
  let w := (s.windows.get n).advance damaged
  if w.reaches (s.lines.get n).config.damageThreshold then
    addOwnCause n .degraded (s.withWindows (s.windows.put n ({ w with reported := true } : Window).close))
  else s.withWindows (s.windows.put n w.close)

/-! ### The receive side at a boundary -/

/-- A boundary at the receive side of a physical line: the frame that ended is judged, completed and counted, and a buffer
is acquired for the next; at the first boundary of a lock there is no frame to complete (R43 to R46, R148). An OVERRUN is
sent before a FAULT, and taken in either order (log 6). -/
def receiveBoundary (n : Line) (frame : List Word) (short : Bool) (s : State) : State :=
  if (s.stores.get n).receiving then
    let v := judge (s.lines.get n) frame short
    advanceWindow n v.damaged (acquire n (modifyStore n (fun st => st.complete v.damaged frame) (report n v s)))
  else acquire n s

/-- The captured form of a fixed frame: an undriven slot is a word 0 with its flag clear; with suspension in its span
every slot is (R127, R138). -/
def captureOf (f : FixedFrame) (blank : Bool) : CapturedFrame where
  slotCount := f.length
  words := f.map fun w => if blank then 0 else w.getD 0
  mask := f.map fun w => !blank && w.isSome

/-- A captured frame joins the queue, or is dropped when the queue holds 8 (R138, R139). -/
def appendCapture (c : CapturedFrame) (s : State) : State :=
  if s.host.captures.length < Config.captureCapacity then
    s.withHost { s.host with captures := s.host.captures ++ [c], overflowRun := false }
  else
    let t := countUp hostLine CAPTURE_OVERFLOWS s
    let u := if s.host.overflowRun then t else sendEvent .captureOverflow hostLine 0 t
    u.withHost { u.host with overflowRun := true }

/-- The host line's fixed frame, which this boundary ends, is delivered; the span of the next frame begins (R114, R127,
R138). -/
def deliverCapture (s : State) : State :=
  let a := s.txas.get hostLine
  let t := s.withTxas (s.txas.put hostLine { a with fixed := none, spanSuspended := a.suspended })
  match a.fixed with
  | some f => appendCapture (captureOf f a.spanSuspended) t
  | none => t

/-- The insert side of a host-line boundary: the pending frame is handed over and arms underrun reporting (R134), or the
boundary is an underrun (R135). -/
def handOver (s : State) : State :=
  match s.host.insertPending with
  | some f => placeInsert f (s.withHost { s.host with insertPending := none, underrunArmed := true })
  | none =>
    let t := countUp hostLine INSERT_UNDERRUNS s
    if s.host.underrunArmed then
      let u := sendEvent .insertUnderrun hostLine 0 t
      u.withHost { u.host with underrunArmed := false }
    else t

/-- A boundary at the host line block, one event of it: hand-over or underrun, then the capture (R128). An INSERT_UNDERRUN
is taken before a CAPTURE_OVERFLOW; an OVERRUN, which store 8 sends, on either side of one (R165, log 6). DESIGN CHOICE (log
21): a CAPTURE_OVERFLOW is created after the store's placement, so its stamp counts the insert handed over at this boundary,
on whichever side of an OVERRUN it is taken; R128 makes the placement an event of its own owner, and R164 does not say
whether it comes first. -/
def hostBoundary (s : State) : State := deliverCapture (handOver s)

/-! ### The transmit side at a boundary -/

/-- The suspension test at a boundary (R125): the flag is cleared when the isolating condition no longer holds. While the
frame that ends is still to be delivered its span keeps what it has seen. -/
def testSuspension (n : Line) (s : State) : State :=
  let a := s.txas.get n
  if a.suspended && !s.isolating n then
    s.withTxas (s.txas.put n { a with suspended := false, spanSuspended := a.spanSuspended && a.fixed.isSome })
  else s

/-- The line's load claim joins the load queue (R84, R86). A load of the line that is still outstanding is superseded; R89
excludes that case (log 8). -/
def placeLoad (n : Line) (s : State) : State :=
  s.withArb { s.arb with
    loadQueue := s.arb.loadQueue.filter (· != n) ++ [n]
    grant := s.arb.grant.map (Grant.killLoad n) }

/-- The fixed frame of a physical line ends at the boundary (R122); that of the host line waits for its delivery. -/
def endFrame (n : Line) (s : State) : State :=
  if n = hostLine then s else s.withTxas (s.txas.put n { s.txas.get n with fixed := none })

/-- A boundary at the transmit side: release, adoption, suspension test, load claim (04 section 4.3, R60, R100, R125,
R84). -/
def transmitBoundary (n : Line) (s : State) : State :=
  placeLoad n (endFrame n (testSuspension n (adopt n (releaseHolds n s))))

/-- A boundary of a physical line at both its sides, in either order (R60, R126). -/
def boundary (n : Line) (frame : List Word) (short txFirst : Bool) (s : State) : State :=
  if txFirst then receiveBoundary n frame short (transmitBoundary n s)
  else transmitBoundary n (receiveBoundary n frame short s)

/-! ### Starting and stopping -/

/-- The receiver enters LOCKED (R9, R14): the counts are 0, the receive reference is empty (R29), and a physical line sends
a SYNC event with the detail LOCKED. -/
def lock (n : Line) (s : State) : State :=
  let t := s.withLines (s.lines.put n
    { s.lines.get n with receiver := .locked, verifyCount := 0, earlyCount := 0, rxRef := none })
  if n = hostLine then t else sendEvent .sync n 3 t

/-- A stop at the receive side: the store is emptied (R51) and the damage window reset (R150). -/
def receiveStop (n : Line) (s : State) : State :=
  (modifyStore n Store.emptied s).withWindows (s.windows.put n .reset)

/-- A stop at the transmit side: the holds end and the cursors are NONE (R71), an adoption due is made (R101), the load
claim is withdrawn (R85) and the fixed frame discarded (R122). -/
def transmitStop (n : Line) (s : State) : State :=
  let t := withdrawLoad n (adopt n (dropHolds n s))
  t.withTxas (t.txas.put n { t.txas.get n with fixed := none })

/-- A line stops running (R20). -/
def stopLine (n : Line) (s : State) : State := transmitStop n (receiveStop n s)

/-- A line stops if it runs. -/
def stopIfRunning (n : Line) (s : State) : State := if s.running n then stopLine n s else s

/-- The receiver takes a state with both counts 0 and the frame timer disarmed (R11, R21, R22, R23). -/
def LineUnit.enter (l : LineUnit) (r : Receiver) : LineUnit :=
  { l with receiver := r, verifyCount := 0, earlyCount := 0, timerArmed := false }

/-- The receiver of line `n` takes a state with both counts 0 and the frame timer disarmed. -/
def enterReceiver (n : Line) (r : Receiver) (s : State) : State :=
  s.withLines (s.lines.put n ((s.lines.get n).enter r))

/-- The reports of a loss of sync: the SYNC event before the FAULT event of the cause LOST (R19, R152). -/
def reportLost (n : Line) (s : State) : State := addOwnCause n .lost (sendEvent .sync n 4 s)

/-- The receiver enters LOST and the line stops running (R19). A COMMIT_DONE of its stop is sent before or after the reports,
and taken at any place beside them (log 6). -/
def enterLost (n : Line) (txFirst : Bool) (s : State) : State :=
  let t := enterReceiver n .lost (countUp n SYNC_LOSSES s)
  if txFirst then receiveStop n (reportLost n (transmitStop n t))
  else transmitStop n (receiveStop n (reportLost n t))

end Sys2Proof.Machine
end

