-- ==== Sys2Proof/Machine/ExchangeCommands.lean ====
section
/-! DEFINITION. Device reset (R23) and the commands of EXCH_COMMAND: RESTART, COMMIT and COPY (Chapter 6). -/

namespace Sys2Proof.Machine

/-- Device reset (R23): everything is at its device-reset value but the inputs of the model, the queue of commands and the
bits that the far ends send next. -/
def deviceReset (s : State) : State := (State.reset.withPending s.pending).withIncoming s.incoming

/-- DEVICE_RESET (R23). -/
def execDeviceReset (s : State) : Host.Outcome State Fault Refusal := .next (deviceReset s)

/-! ### Exchange restart -/

/-- A line after an exchange restart: an enabled receiver in HUNT (R23), transmit frame counter 0 (R25), receive reference
empty (R29); enable and configuration kept. -/
def LineUnit.restarted (l : LineUnit) : LineUnit :=
  { (if l.enabled then l.enter .hunt else l) with txCounter := 0, rxRef := none }

/-- Bank control after an exchange restart (R110, R111): a pending commit completes silently, a copy is aborted; the adoption
set is empty, the names are kept and the command result is OK. -/
def BankControl.restarted (b : BankControl) : BankControl :=
  let t := { b with result := .ok, pair := .stable, adoptionSet := LineSet.empty }
  match b.pair with
  | .stable => t
  | .commitPending => { t with current := Tab.of fun n => if b.adoptionSet.get n then b.active else b.current.get n }
  | .copying => { t with stagedValid := false }

/-- The grant after an exchange restart: a load is discarded when it completes (R93), a copy step writes its entry and does
no more (R111). -/
def Grant.restarted : Grant → Grant
  | .load n p _ => .load n p false
  | .hostRead e => .hostRead e
  | .hostWrite e => .hostWrite e
  | .copyStep i _ => .copyStep i false

/-- The arbiter after an exchange restart (R93): load claims and a copy claim are withdrawn, a grant in progress completes.
No host claim can be waiting, since the restart is itself a host access. -/
def Arbiter.restarted (a : Arbiter) : Arbiter :=
  { a with loadQueue := [], copyClaim := none, grant := a.grant.map Grant.restarted }

/-- The event queue and the interrupt logic after an exchange restart keep IRQ_ENABLE only (R175). -/
def Irq.restarted (i : Irq) : Irq := { Irq.reset with enable := i.enable }

/-- An exchange restart (R23, R25, R29, R52, R72, R93, R110, R111, R113, R144, R161, R175). Configuration records,
LINE_ENABLE, generators, both banks, GROUP_POLICY, the table port and IRQ_ENABLE are kept. -/
def exchangeRestart (s : State) : State where
  lines := Tab.of fun n => (s.lines.get n).restarted
  enableRefused := LineSet.empty
  gens := s.gens
  stores := Tab.of fun n => (s.stores.get n).restarted
  readers := Tab.all 9 (Tab.all 9 .reset)
  bankA := s.bankA
  bankB := s.bankB
  bc := s.bc.restarted
  arb := s.arb.restarted
  txas := Tab.of Assembler.reset
  host := .reset
  counters := Tab.all 9 (Tab.all 8 0)
  windows := Tab.all 9 .reset
  causes := Tab.all 9 .empty
  policies := s.policies
  evq := .reset
  irq := s.irq.restarted
  tp := s.tp
  bus := s.bus
  pending := s.pending
  received := s.received
  incoming := s.incoming

/-- EXCHANGE_RESTART (R23, R97). -/
def execExchangeRestart (s : State) : Host.Outcome State Fault Refusal :=
  .next (whenReady .exchangeRestart exchangeRestart s)

/-! ### Commit -/

/-- The running lines. -/
def State.runningSet (s : State) : LineSet := Tab.of fun n => s.running n

/-- An accepted COMMIT (R99): the names are swapped, every line that is not running adopts at once, the running lines form
the adoption set, and with none the commit completes. -/
def acceptCommit (s : State) : State :=
  let active := s.bc.active.other
  let t := s.withBc { s.bc with
    pair := .commitPending, active := active, adoptionSet := s.runningSet, result := .ok
    current := Tab.of fun n => if s.running n then s.bc.current.get n else active }
  if s.runningSet.isEmpty then completeCommit t else t

/-- COMMIT judged against the pair as it stands (R98). -/
def commit (s : State) : State :=
  if s.bc.pair ≠ .stable then s.withBc { s.bc with result := .busy }
  else if !s.bc.stagedValid then s.withBc { s.bc with result := .stagedIncomplete }
  else acceptCommit s

/-- COMMIT (R99). -/
def execCommit (s : State) : Host.Outcome State Fault Refusal := .next (whenReady .commit commit s)

/-! ### Copy -/

/-- COPY judged against the pair as it stands; accepted, the pair is COPYING with copy index 0 and a copy claim for index
0 (R106). -/
def copy (s : State) : State :=
  if s.bc.pair ≠ .stable then s.withBc { s.bc with result := .busy }
  else (s.withBc { s.bc with pair := .copying, copyIndex := 0, result := .ok }).withArb
    { s.arb with copyClaim := some 0 }

/-- COPY (R106). -/
def execCopy (s : State) : Host.Outcome State Fault Refusal := .next (whenReady .copy copy s)

end Sys2Proof.Machine
end

