-- ==== Sys2Proof/Machine/Generators.lean ====
section
/-! DEFINITION. The registers of the frame generators (Chapter 1, R5 to R8). -/

namespace Sys2Proof.Machine

/-- Every enabled line that generator `g` times fits a period, in the sense of R10. -/
def State.allFit (s : State) (g : Fin 2) (period : Word) : Bool :=
  allLines.all fun n => !(s.lines.get n).enabled || (s.lines.get n).config.fits g period

/-- A period write is refused (R7). -/
def periodRefused (s : State) (g : Fin 2) (value : Word) : Bool :=
  (s.gens.get g).running || decide (value.toNat < 64) || decide (value.toNat ≤ (s.gens.get g).phase.toNat)
    || !s.allFit g value

/-- A phase write is refused (R7). -/
def phaseRefused (s : State) (g : Fin 2) (value : Word) : Bool :=
  (s.gens.get g).running || decide ((s.gens.get g).period.toNat ≤ value.toNat)

/-- A write to a period register is taken or refused (R7). -/
def fgPeriodWrite (g : Fin 2) (value : Word) (s : State) : State :=
  s.withGens (s.gens.put g (if periodRefused s g value then { s.gens.get g with refused := true }
    else { s.gens.get g with period := value, refused := false }))

/-- FG_PERIOD_WRITE (R7). -/
def execFgPeriodWrite (gen : Fin 2) (value : Word) (s : State) : Host.Outcome State Fault Refusal :=
  .next (whenReady (.fgPeriodWrite gen value) (fgPeriodWrite gen value) s)

/-- A write to a phase register is taken or refused (R7). -/
def fgPhaseWrite (g : Fin 2) (value : Word) (s : State) : State :=
  s.withGens (s.gens.put g (if phaseRefused s g value then { s.gens.get g with refused := true }
    else { s.gens.get g with phase := value, refused := false }))

/-- FG_PHASE_WRITE (R7). -/
def execFgPhaseWrite (gen : Fin 2) (value : Word) (s : State) : Host.Outcome State Fault Refusal :=
  .next (whenReady (.fgPhaseWrite gen value) (fgPhaseWrite gen value) s)

/-- START given to a generator (R6): a stopped one runs, with its schedule at the beginning; a running one goes on. -/
def Generator.start (g : Generator) : Generator :=
  if g.running then g else { g with running := true, frameStarts := 0 }

/-- The START codes of a write to FG_CONTROL (R6). -/
def fgStart (value : Word) (s : State) : State :=
  s.withGens (Tab.of fun g => if fgCode value g = 1 then (s.gens.get g).start else s.gens.get g)

/-- FG_START (R6). -/
def execFgStart (value : Word) (s : State) : Host.Outcome State Fault Refusal :=
  .next (whenReady (.fgStart value) (fgStart value) s)

/-- The line goes to HUNT as its generator stops, with no event and no cause (R8). -/
def haltLine (n : Line) (s : State) : State := enterReceiver n .hunt (stopIfRunning n s)

/-- STOP given to a running generator: every enabled line it times goes to HUNT and stops running (R8). -/
def stopGenerator (g : Fin 2) (s : State) : State :=
  let gen := s.gens.get g
  allLines.foldl
    (fun t n => if (t.lines.get n).enabled && (t.lines.get n).config.timing == .fg g then haltLine n t else t)
    (s.withGens (s.gens.put g { gen with running := false }))

/-- STOP in a write to FG_CONTROL for one generator (R6). -/
def stopIfCoded (value : Word) (g : Fin 2) (s : State) : State :=
  if fgCode value g = 2 ∧ (s.gens.get g).running then stopGenerator g s else s

/-- The STOP codes of a write to FG_CONTROL (R6, R8). -/
def fgStop (value : Word) (s : State) : State := stopIfCoded value 1 (stopIfCoded value 0 s)

/-- FG_STOP (R8). -/
def execFgStop (value : Word) (s : State) : Host.Outcome State Fault Refusal :=
  .next (whenReady (.fgStop value) (fgStop value) s)

end Sys2Proof.Machine
end

