-- ==== Sys2Proof/Machine/HostLineCommands.lean ====
section
/-! DEFINITION. The registers of the host line block (Chapter 8). -/

namespace Sys2Proof.Machine

/-- The host line's configured slot count (R130). -/
def State.hostSlots (s : State) : Nat := (s.lines.get hostLine).config.slotCount

/-- A write to INSERT_DATA appends a word, or sets OVER when the buffer is full (R130). -/
def insertDataWrite (value : Word) (s : State) : State :=
  if s.host.compose.length < s.hostSlots then s.withHost { s.host with compose := s.host.compose ++ [value] }
  else s.withHost { s.host with overFlag := true }

/-- INSERT_DATA_WRITE (R130). -/
def execInsertDataWrite (value : Word) (s : State) : Host.Outcome State Fault Refusal :=
  .next (whenReady (.insertDataWrite value) (insertDataWrite value) s)

/-- SUBMIT: refused with BUSY while a frame is pending, refused with SHORT while words are missing, else the composed words
become the pending frame (R131). -/
def submit (s : State) : State :=
  if s.host.insertPending.isSome then s.withHost { s.host with busyFlag := true, shortFlag := false }
  else if s.host.compose.length < s.hostSlots then s.withHost { s.host with shortFlag := true, busyFlag := false }
  else s.withHost { s.host with
    insertPending := some ⟨s.hostSlots, s.host.compose⟩
    compose := [], overFlag := false, shortFlag := false, busyFlag := false }

/-- SUBMIT (R131). -/
def execSubmit (s : State) : Host.Outcome State Fault Refusal := .next (whenReady .submit submit s)

/-- DISCARD empties the compose buffer and clears OVER, SHORT and BUSY (R132). -/
def discard (s : State) : State :=
  s.withHost { s.host with compose := [], overFlag := false, shortFlag := false, busyFlag := false }

/-- DISCARD (R132). -/
def execDiscard (s : State) : Host.Outcome State Fault Refusal := .next (whenReady .discard discard s)

/-- A read of CAPTURE_DATA returns the word at the read index of the head frame, and the index advances up to the last
slot (R140). -/
def captureDataRead (s : State) : State :=
  match s.host.captures with
  | [] => driveData 0 s
  | c :: _ =>
    driveData (c.words.getD s.host.readIndex 0)
      (s.withHost { s.host with
        readIndex := if s.host.readIndex < c.slotCount - 1 then s.host.readIndex + 1 else s.host.readIndex })

/-- CAPTURE_DATA_READ (R140). -/
def execCaptureDataRead (s : State) : Host.Outcome State Fault Refusal :=
  .next (whenReady .captureDataRead captureDataRead s)

/-- A write to CAPTURE_POP, whatever the value, removes the head frame, and has no effect on an empty queue (R141). DESIGN CHOICE
(log 22): so a pop and an append that fall together on an empty queue show their order, one frame or none. -/
def capturePop (s : State) : State :=
  match s.host.captures with
  | [] => s
  | _ :: rest => s.withHost { s.host with captures := rest, readIndex := 0 }

/-- CAPTURE_POP (R141). -/
def execCapturePop (value : Word) (s : State) : Host.Outcome State Fault Refusal :=
  .next (whenReady (.capturePop value) capturePop s)

end Sys2Proof.Machine
end

