-- ==== Sys2Proof/Machine/SupervisionCommands.lean ====
section
/-! DEFINITION. GROUP_POLICY, LINE_RELEASE and GROUP_RELEASE (Chapter 9). -/

namespace Sys2Proof.Machine

/-- A write to GROUP_POLICY (R155): the isolating condition of the lines whose group's policy changes follows at once, and
a group that gains ISOLATE_GROUP propagates GROUP (R154). -/
def groupPolicyWrite (value : Word) (s : State) : State :=
  let changed : Line → Bool := fun n => s.policies.get (s.groupOf n) != (policiesOf value).get (s.groupOf n)
  let t := s.withPolicies (policiesOf value)
  let u := allLines.foldl (fun v n => if changed n then suspendIfIsolating n v else v) t
  giveGroup (fun n => changed n && t.policyOf n == .isolateGroup && t.otherOwnCause n) u

/-- GROUP_POLICY_WRITE (R155). -/
def execGroupPolicyWrite (value : Word) (s : State) : Host.Outcome State Fault Refusal :=
  .next (whenReady (.groupPolicyWrite value) (groupPolicyWrite value) s)

/-- A write to LINE_RELEASE releases the lines whose bit is 1 (R157). -/
def lineRelease (value : Word) (s : State) : State := releaseLines (lineBit value) s

/-- LINE_RELEASE (R157). -/
def execLineRelease (value : Word) (s : State) : Host.Outcome State Fault Refusal :=
  .next (whenReady (.lineRelease value) (lineRelease value) s)

/-- A write to GROUP_RELEASE releases every member of the groups whose bit is 1 (R158). -/
def groupRelease (value : Word) (s : State) : State := releaseLines (fun n => value.bit (s.groupOf n).val) s

/-- GROUP_RELEASE (R158). -/
def execGroupRelease (value : Word) (s : State) : Host.Outcome State Fault Refusal :=
  .next (whenReady (.groupRelease value) (groupRelease value) s)

end Sys2Proof.Machine
end

