-- ==== Sys2Proof/Machine/LineCommands.lean ====
section
/-! DEFINITION. LINE_ENABLE, LINE_RESTART and ENABLE_REFUSED (Chapter 1), with the host line block's part (R142, R143). -/

namespace Sys2Proof.Machine

/-- The last-word memory of a line with every word 0 (R113). -/
def zeroLastWords (n : Line) (s : State) : State :=
  s.withTxas (s.txas.put n { s.txas.get n with lastWords := List.replicate (Config.lineWords n) 0 })

/-- The fit check of an enable (R10): an externally timed line always fits. -/
def State.fitsGenerator (s : State) (n : Line) : Bool :=
  match (s.lines.get n).config.timing with
  | .external => true
  | .fg g => (s.lines.get n).config.fits g (s.gens.get g).period

/-- One line's enable (R10, R11): refused when it does not fit; taken, the receiver is in HUNT, and the transmit frame
counter (R25) and the last-word memory (R113) start from zero. -/
def enableLine (n : Line) (s : State) : State :=
  if s.fitsGenerator n then
    zeroLastWords n (s.withLines (s.lines.put n
      { (s.lines.get n).enter .hunt with enabled := true, txCounter := 0 }))
  else s.withEnableRefused (s.enableRefused.insert n)

/-- The bits written 1 while they read 0 (R10). -/
def lineEnable (value : Word) (s : State) : State :=
  allLines.foldl (fun t n => if lineBit value n && !(t.lines.get n).enabled then enableLine n t else t) s

/-- LINE_ENABLE (R10). -/
def execLineEnable (value : Word) (s : State) : Host.Outcome State Fault Refusal :=
  .next (whenReady (.lineEnable value) (lineEnable value) s)

/-- The compose buffer is emptied, OVER, SHORT and BUSY are cleared and the pending frame is emptied (R133, R142, R143). -/
def HostBlock.clearInsert (h : HostBlock) : HostBlock :=
  { h with compose := [], overFlag := false, shortFlag := false, busyFlag := false, insertPending := none }

/-- The host line block at a disable of the host line: the capture queue is emptied too (R142). -/
def HostBlock.disabled (h : HostBlock) : HostBlock :=
  { h.clearInsert with captures := [], readIndex := 0, overflowRun := false }

/-- One line's disable (R22, R142). -/
def disableLine (n : Line) (s : State) : State :=
  let t := stopIfRunning n s
  let u := t.withLines (t.lines.put n { (t.lines.get n).enter .disabled with enabled := false })
  if n = hostLine then u.withHost u.host.disabled else u

/-- The bits written 0 while they read 1 (R10, R22). -/
def lineDisable (value : Word) (s : State) : State :=
  allLines.foldl (fun t n => if !lineBit value n && (t.lines.get n).enabled then disableLine n t else t) s

/-- LINE_DISABLE (R22). -/
def execLineDisable (value : Word) (s : State) : Host.Outcome State Fault Refusal :=
  .next (whenReady (.lineDisable value) (lineDisable value) s)

/-- One line's restart (R21, R25, R29, R113, R143, R150). -/
def restartLine (n : Line) (s : State) : State :=
  let t := stopIfRunning n s
  let u := zeroLastWords n ((t.withLines (t.lines.put n
    { (t.lines.get n).enter .hunt with txCounter := 0, rxRef := none })).withWindows (t.windows.put n .reset))
  if n = hostLine then u.withHost u.host.clearInsert else u

/-- The bits written 1 of enabled lines (R21). -/
def lineRestart (value : Word) (s : State) : State :=
  allLines.foldl (fun t n => if lineBit value n && (t.lines.get n).enabled then restartLine n t else t) s

/-- LINE_RESTART (R21). -/
def execLineRestart (value : Word) (s : State) : Host.Outcome State Fault Refusal :=
  .next (whenReady (.lineRestart value) (lineRestart value) s)

/-- A read of ENABLE_REFUSED returns the accumulated bits and clears them (R10). -/
def enableRefusedRead (s : State) : State :=
  driveData (lineSetWord s.enableRefused) (s.withEnableRefused LineSet.empty)

/-- ENABLE_REFUSED_READ (R10). -/
def execEnableRefusedRead (s : State) : Host.Outcome State Fault Refusal :=
  .next (whenReady .enableRefusedRead enableRefusedRead s)

end Sys2Proof.Machine
end

