-- ==== Sys2Proof/Machine/TablePortCommands.lean ====
section
/-! DEFINITION. The table port (Chapter 11): TP_CURSOR, TP_CONTROL, TP_DATA and the operations of TP_COMMAND. -/

namespace Sys2Proof.Machine

/-- A write to TP_CURSOR (R178): id and index are replaced, WRAPPED is cleared and the data words at or beyond the record
length of the named table are set to 0. -/
def TablePort.setCursor (tp : TablePort) (value : Word) : TablePort :=
  let id := BitVec.ofNat 4 (value.field 12 4)
  { tp with
    tableId := id
    index := BitVec.ofNat 10 (value.field 0 10)
    wrapped := false
    data := Tab.of fun k => if recordLength id ≤ k.val then 0 else tp.data.get k }

/-- TP_CURSOR written (R178). -/
def tpCursorWrite (value : Word) (s : State) : State := s.withTp (s.tp.setCursor value)

/-- TP_CURSOR_WRITE (R178). -/
def execTpCursorWrite (value : Word) (s : State) : Host.Outcome State Fault Refusal :=
  .next (whenReady (.tpCursorWrite value) (tpCursorWrite value) s)

/-- TP_CONTROL written: a written limit of 0 keeps the stored limit (R180). -/
def tpControlWrite (value : Word) (s : State) : State :=
  s.withTp { s.tp with
    autoAdvance := value.bit 0
    clearOnRead := value.bit 1
    limit := if value.field 8 8 = 0 then s.tp.limit else BitVec.ofNat 8 (value.field 8 8) }

/-- TP_CONTROL_WRITE (R180). -/
def execTpControlWrite (value : Word) (s : State) : Host.Outcome State Fault Refusal :=
  .next (whenReady (.tpControlWrite value) (tpControlWrite value) s)

/-- TP_DATA written: ignored when the word is not in use for the named table (R179). -/
def tpDataWrite (k : Fin 4) (value : Word) (s : State) : State :=
  if k.val < recordLength s.tp.tableId then s.withTp { s.tp with data := s.tp.data.put k value } else s

/-- TP_DATA_WRITE (R179). -/
def execTpDataWrite (index : Fin 4) (value : Word) (s : State) : Host.Outcome State Fault Refusal :=
  .next (whenReady (.tpDataWrite index value) (tpDataWrite index value) s)

/-! ### Operations -/

/-- The cursor after an operation that completes with OK (R184). -/
def TablePort.advance (tp : TablePort) : TablePort :=
  if tp.autoAdvance then
    if tp.index.toNat + 1 = tableSize tp.tableId then { tp with index := 0, wrapped := true }
    else { tp with index := tp.index + 1 }
  else tp

/-- The operation ends with a result; OK advances the cursor (R184, R186). -/
def tpEnd (r : TpResult) (s : State) : State :=
  let tp := if r = .ok then s.tp.advance else s.tp
  s.withTp { tp with result := r, timer := none }

/-- An admitted map operation places its host claim, and the stretch limit begins to run (R181, R185). -/
def placeHostClaim (op : HostOp) (s : State) : State :=
  (s.withArb { s.arb with hostClaim := some op }).withTp
    { s.tp with timer := some (s.tp.limit.toNat * Config.stretchUnit) }

/-- The number of the line, or of anything below `k`, that an index names. -/
def indexIn (k : Nat) (i : Nat) : Option (Fin k) := if h : i < k then some ⟨i, h⟩ else none

/-- The words of a record that is copied into the data words: those in use, the others 0 (R147, R182). -/
def setData (w : Tab Word 4) (s : State) : State := s.withTp { s.tp with data := w }

/-- The record of LINE_CONFIG (R182). -/
def readConfig (n : Line) (s : State) : State :=
  let c := (s.lines.get n).config
  setData #v[c.word0, c.word1, c.word2, 0] s

/-- The record of LINE_STATUS (R54, R96, R160, R182). -/
def readStatus (n : Line) (s : State) : State :=
  setData #v[s.statusWord0 n, s.statusWord1 n, s.statusWord2 n, s.statusWord3 n] s

/-- The line and the counter that an index of COUNTERS names (R145). -/
def counterLine (i : Nat) : Option Line := indexIn 9 (i / 8)
def counterNumber (i : Nat) : Fin 8 := ⟨i % 8, Nat.mod_lt _ (by decide)⟩

/-- A COUNTERS entry is read, and zeroed in the same instant with CLEAR_ON_READ (R147). -/
def readCounter (n : Line) (k : Fin 8) (s : State) : State :=
  let t := setData #v[s.counter n k, 0, 0, 0] s
  if s.tp.clearOnRead then t.withCounters (s.counters.put n ((s.counters.get n).put k 0)) else t

/-- The record a READ of a table outside table memory copies (R182). -/
def readRecord (s : State) : State :=
  let i := s.tp.index.toNat
  if s.tp.tableId.toNat = 2 then
    match indexIn 9 i with
    | some n => readConfig n s
    | none => s
  else if s.tp.tableId.toNat = 3 then
    match indexIn 9 i with
    | some n => readStatus n s
    | none => s
  else
    match counterLine i with
    | some n => readCounter n (counterNumber i) s
    | none => s

/-- TP_COMMAND READ, judged by the tests of R181. -/
def tpRead (s : State) : State :=
  if tableSize s.tp.tableId = 0 then tpEnd .noTable s
  else if tableSize s.tp.tableId ≤ s.tp.index.toNat then tpEnd .noEntry s
  else if s.tp.tableId.toNat ≤ 1 then placeHostClaim .read s
  else tpEnd .ok (readRecord s)

/-- TP_READ (R182). -/
def execTpRead (s : State) : Host.Outcome State Fault Refusal := .next (whenReady .tpRead tpRead s)

/-- A line moves into another containment group (R156): its isolating condition is judged under the new group's policy at
once, and under ISOLATE_GROUP it gives GROUP to the others or gains it from them (R154). -/
def moveGroup (n : Line) (s : State) : State :=
  giveGroup
    (fun m => s.policyOf n == .isolateGroup
      && (if m = n then s.otherOwnCause n else s.otherMember n m && (s.causes.get n).own))
    (suspendIfIsolating n s)

/-- A LINE_CONFIG write is taken: the record is replaced whole (R2); a changed slot count of the host line empties the
compose buffer and the pending frame (R133); a new group moves the line (R156). -/
def writeConfig (n : Line) (c : LineConfig) (s : State) : State :=
  let old := (s.lines.get n).config
  let t := s.withLines (s.lines.put n { s.lines.get n with config := c })
  let u := if n = hostLine ∧ c.slotCount ≠ old.slotCount then t.withHost t.host.clearInsert else t
  if c.group ≠ old.group then moveGroup n u else u

/-- TP_COMMAND WRITE to LINE_CONFIG (R2, R181). -/
def writeLineConfig (n : Line) (s : State) : State :=
  match LineConfig.decode? n (s.tp.data.get 0) (s.tp.data.get 1) (s.tp.data.get 2) with
  | none => tpEnd .rejectField s
  | some c =>
    if (s.lines.get n).enabled && (s.lines.get n).config.timingDiffers c then tpEnd .rejectLive s
    else tpEnd .ok (writeConfig n c s)

/-- TP_COMMAND WRITE to MAP_STAGED: the field checks before the pair state, then the claim (R81, R82, R83). -/
def writeMap (s : State) : State :=
  match MapEntry.decode? (s.tp.data.get 0) (s.tp.data.get 1) with
  | none => tpEnd .rejectField s
  | some e => if s.bc.pair = .stable then placeHostClaim (.write e) s else tpEnd .rejectBusy s

/-- TP_COMMAND WRITE, judged by the tests of R181. -/
def tpWrite (s : State) : State :=
  if tableSize s.tp.tableId = 0 then tpEnd .noTable s
  else if tableSize s.tp.tableId ≤ s.tp.index.toNat then tpEnd .noEntry s
  else if s.tp.tableId.toNat = 0 then writeMap s
  else if s.tp.tableId.toNat = 2 then
    match indexIn 9 s.tp.index.toNat with
    | some n => writeLineConfig n s
    | none => s
  else tpEnd .readOnly s

/-- TP_WRITE (R183). -/
def execTpWrite (s : State) : Host.Outcome State Fault Refusal := .next (whenReady .tpWrite tpWrite s)

end Sys2Proof.Machine
end

