-- ==== Sys2Proof/Machine/HostOperations.lean ====
section
/-! DEFINITION. The end of a stretched access (R176, R185): the completion of a host operation of table memory and the
expiry of the stretch limit, after which the accesses that found RDY inactive are taken; and the ignored write (R177). -/

namespace Sys2Proof.Machine

/-- A host access that has waited for RDY is taken. A command that is no host access is never held. -/
def takeHeld (c : Instr) (s : State) : State :=
  match c with
  | .deviceReset => s
  | .syncArrival _ _ _ => s
  | .timerExpiry _ _ => s
  | .fgFrameStart _ _ _ => s
  | .arbiterGrant => s
  | .loadComplete => s
  | .mapReadComplete => s
  | .mapWriteComplete => s
  | .copyStepComplete => s
  | .stretchLimitExpiry => s
  | .exchangeRestart => exchangeRestart s
  | .commit => commit s
  | .copy => copy s
  | .lineEnable v => lineEnable v s
  | .lineDisable v => lineDisable v s
  | .lineRestart v => lineRestart v s
  | .enableRefusedRead => enableRefusedRead s
  | .fgPeriodWrite g v => fgPeriodWrite g v s
  | .fgPhaseWrite g v => fgPhaseWrite g v s
  | .fgStart v => fgStart v s
  | .fgStop v => fgStop v s
  | .groupPolicyWrite v => groupPolicyWrite v s
  | .lineRelease v => lineRelease v s
  | .groupRelease v => groupRelease v s
  | .tpCursorWrite v => tpCursorWrite v s
  | .tpControlWrite v => tpControlWrite v s
  | .tpDataWrite k v => tpDataWrite k v s
  | .tpRead => tpRead s
  | .tpWrite => tpWrite s
  | .irqStatusWrite v => irqStatusWrite v s
  | .irqEnableWrite v => irqEnableWrite v s
  | .evqCountWrite _ => evqCountWrite s
  | .evqHead0Read => evqHead0Read s
  | .evqPop _ => evqPop s
  | .insertDataWrite v => insertDataWrite v s
  | .submit => submit s
  | .discard => discard s
  | .captureDataRead => captureDataRead s
  | .capturePop _ => capturePop s
  | .registerWriteIgnored _ _ => s

/-- The accesses that wait are taken in their order, until one of them starts a map operation again; those behind it wait
on (R176). -/
def drainHeld : List Instr → State → State
  | [], s => s
  | c :: cs, s => if s.stretched then s.withBus { s.bus with held := c :: cs } else drainHeld cs (takeHeld c s)

/-- RDY returns active: the accesses that wait are taken (R176). -/
def returnReady (s : State) : State := drainHeld s.bus.held (s.withBus { s.bus with held := [] })

/-- A granted host READ copies its entry into data words 0 and 1 and completes with OK (R80, R182). -/
def finishMapRead (e : MapEntry) (s : State) : State :=
  let t := s.withArb { s.arb with grant := none }
  tpEnd .ok (t.withTp { t.tp with data := (t.tp.data.put 0 e.word0).put 1 e.word1 })

/-- MAP_READ_COMPLETE's effect (R80). -/
def mapReadComplete (s : State) : State :=
  match s.arb.grant with
  | some (.hostRead e) => returnReady (finishMapRead e s)
  | some (.load _ _ _) => s
  | some (.hostWrite _) => s
  | some (.copyStep _ _) => s
  | none => s

/-- MAP_READ_COMPLETE (R80). -/
def execMapReadComplete (s : State) : Host.Outcome State Fault Refusal := .next (mapReadComplete s)

/-- A granted host WRITE replaces the whole entry at the cursor in the staged bank and completes with OK (R83, R183). -/
def finishMapWrite (e : MapEntry) (s : State) : State :=
  let t := s.withArb { s.arb with grant := none }
  tpEnd .ok (t.withBank s.bc.staged (Bank.write (s.bank s.bc.staged) s.tp.index.toNat e))

/-- MAP_WRITE_COMPLETE's effect (R83). -/
def mapWriteComplete (s : State) : State :=
  match s.arb.grant with
  | some (.hostWrite e) => returnReady (finishMapWrite e s)
  | some (.load _ _ _) => s
  | some (.hostRead _) => s
  | some (.copyStep _ _) => s
  | none => s

/-- MAP_WRITE_COMPLETE (R83). -/
def execMapWriteComplete (s : State) : Host.Outcome State Fault Refusal := .next (mapWriteComplete s)

/-- The waiting claim is withdrawn with the result TIMEOUT, and the sticky TP_TIMEOUT status is set (R90, R185). -/
def timeOut (s : State) : State :=
  tpEnd .timeout ((s.withArb { s.arb with hostClaim := none }).withIrq { s.irq with tpTimeout := true })

/-- STRETCH_LIMIT_EXPIRY's effect: after the grant an expiry has none (R185). -/
def stretchLimitExpiry (s : State) : State :=
  match s.arb.hostClaim with
  | some _ => returnReady (timeOut s)
  | none => s

/-- STRETCH_LIMIT_EXPIRY (R185). -/
def execStretchLimitExpiry (s : State) : Host.Outcome State Fault Refusal := .next (stretchLimitExpiry s)

/-- REGISTER_WRITE_IGNORED (R177). Operands that name a write which is not ignored are no such command (log 18). -/
def execRegisterWriteIgnored (address : BitVec 6) (value : Word) (s : State) : Host.Outcome State Fault Refusal :=
  if writeIgnored address value then .next (whenReady (.registerWriteIgnored address value) (fun t => t) s)
  else .refused .writeNotIgnored

end Sys2Proof.Machine
end

