-- ==== Sys2Proof/Machine/WireOps.lean ====
section
/-! DEFINITION. The bit clocks of the physical lines (Chapters 1 and 3): the bits sampled on LRXDn and the words formed from
them, and what the block does while no command waits. -/

namespace Sys2Proof.Machine

/-- A line counts its bit clocks while its frame timer is armed (R12) and while it runs (R3, R4). -/
def State.counting (s : State) (n : Line) : Bool := (s.lines.get n).timerArmed || s.running n

/-- The slot that ends with the last of the bits, with its word: none inside a slot and past the last of the `k` slots (R3,
R4). -/
def formedWord (k : Nat) (bits : List Bool) : Option (Nat × Word) :=
  let i := bits.length / Config.slotBits
  if bits.length % Config.slotBits = 0 ∧ 1 ≤ i ∧ i ≤ k then some (i - 1, slotWord bits (i - 1)) else none

/-- The buffer with its word `i` replaced. -/
def Buffer.writeWord (i : Nat) (w : Word) (b : Buffer) : Buffer := { b with words := b.words.set i w }

/-- The FILLING buffer takes the word of a slot (R42). A discarded frame is stored nowhere. -/
def Store.writeWord (i : Nat) (w : Word) (st : Store) : Store :=
  match st.filling with
  | some b => st.modify b (Buffer.writeWord i w)
  | none => st

/-- The word that the last of the bits completes is written as soon as it has been formed, while the line runs (R42, R47). -/
def storeFormed (n : Line) (bits : List Bool) (s : State) : State :=
  if s.running n then
    match formedWord (s.lines.get n).config.slotCount bits with
    | some (i, w) => modifyStore n (Store.writeWord i w) s
    | none => s
  else s

/-- A bit clock of line `n` with the bit that it samples (R4, R12, R42). It has no effect on a line that counts none. -/
def bitClock (n : Line) (b : Bool) (s : State) : State :=
  if s.counting n then
    storeFormed n (s.received.get n ++ [b]) (s.withReceived (s.received.put n (s.received.get n ++ [b])))
  else s

/-- The bit clocks of line `n` with the bits that they sample, oldest first. -/
def bitClocks (n : Line) (bits : List Bool) (s : State) : State := bits.foldl (fun t b => bitClock n b t) s

/-- A frame of line `n` begins: no bit of it has been sampled (R3, R12). -/
def beginFrame (n : Line) (s : State) : State := s.withReceived (s.received.put n [])

/-- What the block does while no command waits: a bit clock falls on the line on which the next bit stands; with no bit there
it idles (log 1). -/
def tick (s : State) : State :=
  match s.incoming with
  | [] => s
  | (p, b) :: rest => bitClock p.line b (s.withIncoming rest)

end Sys2Proof.Machine
end

