-- ==== Sys2Proof/Machine/LineEvents.lean ====
section
/-! DEFINITION. The events of the lines' timing (Chapter 1): sync arrivals, expiries of the frame timer and frame starts of
the generators. An event that cannot occur in the state it finds leaves the state (log 3). Each event takes the bit clocks
before it first (log 4), and its records reach the event queue in the order of its turns (log 6). -/

namespace Sys2Proof.Machine

/-- The receiver goes to VERIFY with verify count 1 and the frame timer armed on the arrival (R13, R14, R19). -/
def toVerify (n : Line) (s : State) : State :=
  beginFrame n
    (s.withLines (s.lines.put n { s.lines.get n with receiver := .verify, verifyCount := 1, timerArmed := true }))

/-- An arrival that no armed timer judges: taken in HUNT (R13), taken in LOST with auto-rehunt on and ignored with it off
(R19), of no effect in DISABLED (R188). -/
def firstArrival (n : Line) (s : State) : State :=
  match (s.lines.get n).receiver with
  | .hunt => toVerify n s
  | .lost => if (s.lines.get n).config.autoRehunt then toVerify n s else s
  | .disabled => s
  | .verify => s
  | .locked => s

/-- An expiry of the frame timer: VERIFY goes to HUNT (R14), LOCKED counts a sync error and goes to LOST (R18); elsewhere
the timer is disarmed already (Table 1-2). -/
def expire (n : Line) (txFirst : Bool) (s : State) : State :=
  match (s.lines.get n).receiver with
  | .verify => enterReceiver n .hunt s
  | .locked => enterLost n txFirst (countUp n SYNC_ERRORS s)
  | .disabled => s
  | .hunt => s
  | .lost => s

/-- The arrival arms the frame timer anew and sets the consecutive-early count. -/
def rearm (n : Line) (early : Nat) (s : State) : State :=
  beginFrame n (s.withLines (s.lines.put n { s.lines.get n with earlyCount := early, timerArmed := true }))

/-- An arrival in VERIFY before the expiry (R14): on time it raises the verify count or locks the line, whose first frame
boundary it is; early or late it is the new reference. The SYNC of the lock is sent before an OVERRUN of the boundary (R53),
and they are taken in either order (log 6). -/
def verifyArrival (n : Line) (samples : List Bool) (txFirst : Bool) (s : State) : State :=
  let l := s.lines.get n
  if samples.length = l.config.frameBits then
    if l.verifyCount = 2 then boundary n [] false txFirst (rearm n 0 (lock n s))
    else beginFrame n (s.withLines (s.lines.put n { l with verifyCount := 2, timerArmed := true }))
  else toVerify n s

/-- An arrival in LOCKED before the expiry: on time a boundary (R15), late a boundary with a sync error (R17), the first
early one a short boundary with a sync error, the second in a row a loss of sync (R16). -/
def lockedArrival (n : Line) (samples : List Bool) (txFirst : Bool) (s : State) : State :=
  let l := s.lines.get n
  if samples.length = l.config.frameBits then
    boundary n (fullFrame l.config.slotCount samples) false txFirst (rearm n 0 s)
  else if l.config.frameBits < samples.length then
    boundary n (fullFrame l.config.slotCount samples) false txFirst (rearm n 0 (countUp n SYNC_ERRORS s))
  else if l.earlyCount = 0 then
    boundary n (shortFrame l.config.slotCount samples) true txFirst (rearm n 1 (countUp n SYNC_ERRORS s))
  else enterLost n txFirst (countUp n SYNC_ERRORS s)

/-- An arrival that falls `samples.length` bit clocks after the one that armed the frame timer (R12 to R19). On or past the
16th bit clock after the expected position it is the first one after the expiry of the timer (R12, log 4). -/
def judgeArrival (n : Line) (samples : List Bool) (txFirst : Bool) (s : State) : State :=
  let l := s.lines.get n
  match l.receiver with
  | .disabled => s
  | .hunt => firstArrival n s
  | .lost => firstArrival n s
  | .verify =>
    if l.config.frameBits + Config.expiryMargin ≤ samples.length then firstArrival n (expire n txFirst s)
    else verifyArrival n samples txFirst s
  | .locked =>
    if l.config.frameBits + Config.expiryMargin ≤ samples.length then firstArrival n (expire n txFirst s)
    else lockedArrival n samples txFirst s

/-- A frame sync arrival, after the bit clocks that `samples` gives (R12). An internally timed line has no arrivals (R3). -/
def syncArrival (n : Line) (samples : List Bool) (txFirst : Bool) (turns : List Nat) (s : State) : State :=
  if (s.lines.get n).config.timing = .external then
    inTurn turns (fun t => judgeArrival n (t.received.get n) txFirst t) (bitClocks n samples s)
  else s

/-- SYNC_ARRIVAL (R12). -/
def execSyncArrival (line : PhysLine) (samples : List Bool) (order : LineOrder) (s : State) :
    Host.Outcome State Fault Refusal :=
  .next (syncArrival line.line samples order.txFirst order.turns s)

/-- The frame timer of an externally timed line expires, if it is armed, after the bit clocks that `samples` gives (R12). -/
def timerExpiry (n : Line) (samples : List Bool) (txFirst : Bool) (turns : List Nat) (s : State) : State :=
  if (s.lines.get n).config.timing = .external ∧ (s.lines.get n).timerArmed then
    inTurn turns (expire n txFirst) (bitClocks n samples s)
  else s

/-- TIMER_EXPIRY (R18). -/
def execTimerExpiry (line : PhysLine) (expiry : Expiry) (s : State) : Host.Outcome State Fault Refusal :=
  .next (timerExpiry line.line expiry.samples expiry.order.txFirst expiry.order.turns s)

/-! ### Frame starts -/

/-- A frame start of generator `g` reaches the line: it is enabled, timed by `g`, and in HUNT or LOCKED (R9). -/
def State.timedBy (s : State) (g : Fin 2) (n : Line) : Bool :=
  let l := s.lines.get n
  l.enabled && l.config.timing == .fg g && (l.receiver == .hunt || l.receiver == .locked)

/-- The list without later copies of an element. -/
def firstOnly : List Part → List Part
  | [] => []
  | p :: ps => p :: (firstOnly ps).filter (· != p)

/-- Both sides of every line, in increasing order of line. -/
def allParts : List Part := allLines.flatMap fun n => [⟨n, .receive⟩, ⟨n, .transmit⟩]

/-- The order in which the sides of the timed lines are taken: as the command names them, then those it does not name. Each
side of each timed line stands in it exactly once, whatever the command names (log 5). -/
def frameStartOrder (timed : Line → Bool) (order : List Part) : List Part :=
  (firstOnly (order ++ allParts)).filter fun p => timed p.line

/-- The receive side of a line at a frame start: its physical receiver, or the host line block. -/
def receivePart (n : Line) (s : State) : State :=
  if n = hostLine then hostBoundary s
  else beginFrame n (receiveBoundary n (fullFrame (s.lines.get n).config.slotCount (s.received.get n)) false s)

/-- One side of a timed line takes the frame start: a line in HUNT enters LOCKED first (R9). Its SYNC is sent first and taken
at any place beside the records of the boundary (log 6). -/
def takePart (p : Part) (s : State) : State :=
  let t := if (s.lines.get p.line).receiver = .hunt then lock p.line s else s
  match p.side with
  | .receive => receivePart p.line t
  | .transmit => transmitBoundary p.line t

/-- A frame start of a running generator (R6, R9). DESIGN CHOICE (log 23): a line's transmit side releases its holds in all
nine stores at one place in the order of sides. R60 makes each release an event of its store, before or after that store's own
boundary, so the part may order them store by store; joint orders that no order of the sides gives are not reached. -/
def frameStart (g : Fin 2) (order : List Part) (s : State) : State :=
  (frameStartOrder (s.timedBy g) order).foldl (fun t p => takePart p t)
    (s.withGens (s.gens.put g { s.gens.get g with frameStarts := (s.gens.get g).frameStarts + 1 }))

/-- The bit clocks of the physical lines that generator `g` times, since those taken already. -/
def frameBitClocks (g : Fin 2) (samples : Tab (List Bool) 8) (s : State) : State :=
  allLines.foldl (fun t n =>
    match physLine? n with
    | some p => if s.timedBy g n then bitClocks n (samples.get p) t else t
    | none => t) s

/-- A frame start, after the bit clocks that `samples` gives. A stopped generator has no frame start (log 3). -/
def fgFrameStart (g : Fin 2) (samples : Tab (List Bool) 8) (order : List Part) (turns : List Nat) (s : State) : State :=
  if (s.gens.get g).running then inTurn turns (frameStart g order) (frameBitClocks g samples s) else s

/-- FG_FRAME_START (R9). -/
def execFgFrameStart (gen : Fin 2) (samples : Tab (List Bool) 8) (order : StartOrder) (s : State) :
    Host.Outcome State Fault Refusal :=
  .next (fgFrameStart gen samples order.sides order.turns s)

end Sys2Proof.Machine
end

