-- ==== Sys2Proof/Machine/AssemblyOps.lean ====
section
/-! DEFINITION. What follows a completed slot-program load: the source set, the selection of each reader and its slips
(Chapter 4), and the fixing of the coming frame (Chapter 7). -/

namespace Sys2Proof.Machine

/-! ### Selection (Chapter 4) -/

/-- The slot program names the line as source in a ROUTE entry; slot 0 of a checked line is left out (R58, R27). -/
def inSourceSet (check : Bool) (program : List MapEntry) (x : Line) : Bool :=
  (if check then program.drop 1 else program).any fun e => e.kind == .route && e.sourceLine == x

/-- What the reader of an input line finds (R59, R63, R64). -/
inductive Choice where
  | outside
  | contained
  | absent
  | take (buffer : Fin 4) (number : BitVec 32)
deriving DecidableEq, Repr

/-- The choice of the reader of input line `x` (R59, R63, R64). -/
def choiceOf (s : State) (check : Bool) (program : List MapEntry) (x : Line) : Choice :=
  if !inSourceSet check program x then .outside
  else if s.containedSource x then .contained
  else if !s.running x then .absent
  else match (s.stores.get x).newest with
    | none => .absent
    | some (b, n) => .take b n

/-- The reader after its selection (R59, R63, R64). -/
def Choice.reader : Choice → Reader
  | .outside => .reset
  | .contained => .reset
  | .absent => .reset
  | .take b n => ⟨some n, some b⟩

/-- The containment view that the selection gives (R62, R113). -/
def Choice.view (st : Store) : Choice → Option View
  | .outside => none
  | .contained => some .contained
  | .absent => some .absent
  | .take b _ => some (.held b (st.buffers.get b).slotCount (st.buffers.get b).damaged)

/-- The store after the selection of line `y` (R39, R64). -/
def Choice.store (y : Line) (st : Store) : Choice → Store
  | .outside => st
  | .contained => st
  | .absent => st
  | .take b _ => st.modify b (Buffer.hold y)

/-- How a selection is classified (Table 4-1). -/
inductive Slip where
  | none
  | repeated
  | dropped (frames : Nat)
deriving DecidableEq, Repr

/-- The classification of taking frame `n` from cursor `c` (R64). -/
def classify (c : Option (BitVec 32)) (n : BitVec 32) : Slip :=
  match c with
  | .none => .none
  | some c =>
    let d := (n - c).toNat
    if d = 0 then .repeated
    else if d = 1 then .none
    else if d < 2 ^ 31 then .dropped (d - 1)
    else .none

/-- The slip of a choice made from a cursor. -/
def Choice.slip (c : Option (BitVec 32)) : Choice → Slip
  | .outside => .none
  | .contained => .none
  | .absent => .none
  | .take _ n => classify c n

/-- A slip of reader (y, x) is counted for the output line and sent to the event queue (R65, R66). -/
def reportSlip (y x : Line) (slip : Slip) (s : State) : State :=
  match slip with
  | .none => s
  | .repeated => sendSlip .slipRepeat y x 0 (countUp y REPEAT_SLIPS s)
  | .dropped k => sendSlip .slipDrop y x k (countUp y DROP_SLIPS s)

/-- Line `y` selects from every store, under a slot program; the slips are reported in increasing order of input line
(R62). -/
def selectSources (y : Line) (program : List MapEntry) (s : State) : State :=
  let check := (s.lines.get y).config.checkEnable
  let choice := choiceOf s check program
  let old := s.readers.get y
  let t := ((s.withReaders (s.readers.put y (Tab.of fun x => (choice x).reader))).withStores
      (Tab.of fun x => (choice x).store y (s.stores.get x))).withTxas
      (s.txas.put y { s.txas.get y with
        program := some program
        views := Tab.of fun x => (choice x).view (s.stores.get x) })
  allLines.foldl (fun u x => reportSlip y x ((choice x).slip (old.get x).cursor) u) t

/-! ### Fixing (Chapter 7) -/

/-- The substitute of a ROUTE slot whose source is not contained (R117). -/
def substitute (e : MapEntry) (last : Word) : Word :=
  match e.policy with
  | .hold => last
  | .fill => e.value

/-- The outcome of one slot (Table 7-1, R115 to R118): undriven, or driven with a word. -/
def fixSlot (stores : Tab Store 9) (views : Tab (Option View) 9) (e : MapEntry) (last : Word) : Option Word :=
  match e.kind with
  | .idle => none
  | .constant => some e.value
  | .route =>
    match views.get e.sourceLine with
    | some .contained =>
      some (match e.policy with
        | .hold => 0
        | .fill => e.value)
    | some (.held b k damaged) =>
      if k ≤ e.sourceSlot.val ∨ damaged then some (substitute e last)
      else some ((((stores.get e.sourceLine).buffers.get b).words).getD e.sourceSlot.val 0)
    | some .absent => some (substitute e last)
    | none => some (substitute e last)

/-- The slots of a program, each with its last-word memory. -/
def fixSlots (stores : Tab Store 9) (views : Tab (Option View) 9) : List MapEntry → List Word → FixedFrame
  | [], _ => []
  | e :: es, ls => fixSlot stores views e (ls.headD 0) :: fixSlots stores views es ls.tail

/-- The check word of a frame: the counter, and the sum of the words fixed for slots 1 onward, an undriven slot counting 0
(R26). -/
def frameCheckWord (counter : BitVec 4) (slots : FixedFrame) : Word :=
  checkWord counter (frameSum (slots.map fun w => w.getD 0))

/-- Slot 0 of a checked line carries the check word (R119). -/
def withCheck (check : Bool) (counter : BitVec 4) : FixedFrame → FixedFrame
  | [] => []
  | w :: ws => (if check then some (frameCheckWord counter ws) else w) :: ws

/-- The last-word memory after a fixing: each driven slot writes its word (R120). -/
def updateLast : FixedFrame → List Word → List Word
  | [], ls => ls
  | _ :: _, [] => []
  | w :: ws, l :: ls => w.getD l :: updateLast ws ls

/-- The assembler of line `y` fixes the coming frame from its program and views (R114, R120), and the transmit frame counter
of a physical line advances (R25). -/
def fixFrame (y : Line) (s : State) : State :=
  let a := s.txas.get y
  let l := s.lines.get y
  let frame := withCheck l.config.checkEnable l.txCounter
    (fixSlots s.stores a.views (a.program.getD []) a.lastWords)
  (s.withTxas (s.txas.put y { a with fixed := some frame, lastWords := updateLast frame a.lastWords })).withLines
    (if y = hostLine then s.lines else s.lines.put y { l with txCounter := l.txCounter + 1 })

end Sys2Proof.Machine
end

