-- ==== Sys2Proof/Machine/TableMemory.lean ====
section
/-! DEFINITION. Table memory at work (Chapters 5 and 6): the arbiter's grant, the completion of a load and of a copy step. The
completions of host operations stand in Machine/HostOperations.lean, since they end the stretched access. -/

namespace Sys2Proof.Machine

/-- The bank that the table named by the cursor reaches: MAP_STAGED the staged bank, MAP_ACTIVE the active one (R76,
R80). -/
def State.namedBank (s : State) : BankName := if s.tp.tableId = 0 then s.bc.staged else s.bc.active

/-- The claim of a host operation becomes the grant; a READ takes its entry at the grant (R80). -/
def hostGrant (s : State) : HostOp → Grant
  | .read => .hostRead (Bank.read (s.bank s.namedBank) s.tp.index.toNat)
  | .write e => .hostWrite e

/-- The slot-program load of line `y` at its grant: the entries of its current bank as they stand (R84). -/
def loadGrant (s : State) (y : Line) : Grant :=
  .load y (loadProgram (s.bank (s.bc.current.get y)) y (s.lines.get y).config.slotCount) true

/-- The arbiter grants the free port to the oldest load claim, else the host claim, else the copy claim (R87). A grant of
the host claim stops the stretch-limit timer (R185). -/
def arbiterGrant (s : State) : State :=
  match s.arb.grant with
  | some _ => s
  | none =>
    match s.arb.loadQueue with
    | y :: rest => s.withArb { s.arb with loadQueue := rest, grant := some (loadGrant s y) }
    | [] =>
      match s.arb.hostClaim with
      | some op =>
        (s.withArb { s.arb with hostClaim := none, grant := some (hostGrant s op) }).withTp { s.tp with timer := none }
      | none =>
        match s.arb.copyClaim with
        | some i => s.withArb { s.arb with copyClaim := none, grant := some (.copyStep i true) }
        | none => s

/-- ARBITER_GRANT (R87). -/
def execArbiterGrant (s : State) : Host.Outcome State Fault Refusal := .next (arbiterGrant s)

/-- The port is free again (R87). -/
def freePort (s : State) : State := s.withArb { s.arb with grant := none }

/-- A load completes: its line selects and fixes, unless it has stopped since (R85, R62, R114). -/
def loadComplete (s : State) : State :=
  match s.arb.grant with
  | some (.load y program live) =>
    if live then fixFrame y (selectSources y program (freePort s)) else freePort s
  | some (.hostRead _) => s
  | some (.hostWrite _) => s
  | some (.copyStep _ _) => s
  | none => s

/-- LOAD_COMPLETE (R85). -/
def execLoadComplete (s : State) : Host.Outcome State Fault Refusal := .next (loadComplete s)

/-- The copy completes (R108). -/
def completeCopy (s : State) : State :=
  let t := sendBankEvent .copyDone 0 (s.withBc { s.bc with pair := .stable, stagedValid := true })
  t.withIrq { t.irq with copyDone := true }

/-- A copy step of a copy in progress is done: the index advances, and the next claim is placed or the copy completes (R107,
R108). -/
def advanceCopy (s : State) : State :=
  let t := s.withBc { s.bc with copyIndex := s.bc.copyIndex + 1 }
  if s.bc.copyIndex + 1 < Config.mapEntries then t.withArb { t.arb with copyClaim := some (s.bc.copyIndex + 1) }
  else completeCopy t

/-- A copy step writes its entry of the active bank to the staged bank; the step of an aborted copy does no more (R107,
R111). -/
def copyStepComplete (s : State) : State :=
  match s.arb.grant with
  | some (.copyStep i live) =>
    let t := freePort (s.withBank s.bc.staged
      (Bank.write (s.bank s.bc.staged) i (Bank.read (s.bank s.bc.active) i)))
    if live then advanceCopy t else t
  | some (.load _ _ _) => s
  | some (.hostRead _) => s
  | some (.hostWrite _) => s
  | none => s

/-- COPY_STEP_COMPLETE (R107). -/
def execCopyStepComplete (s : State) : Host.Outcome State Fault Refusal := .next (copyStepComplete s)

end Sys2Proof.Machine
end

