-- ==== Sys2Proof/Machine/Dispatch.lean ====
section
/-! DEFINITION. The meaning of every command: one arm per constructor, each one direct call of its meaning. -/

namespace Sys2Proof.Machine

def exec (i : Instr) (s : State) : Host.Outcome State Fault Refusal :=
  match i with
  | .deviceReset => Sys2Proof.Machine.execDeviceReset s
  | .syncArrival line samples order => Sys2Proof.Machine.execSyncArrival line samples order s
  | .timerExpiry line expiry => Sys2Proof.Machine.execTimerExpiry line expiry s
  | .fgFrameStart gen samples order => Sys2Proof.Machine.execFgFrameStart gen samples order s
  | .arbiterGrant => Sys2Proof.Machine.execArbiterGrant s
  | .loadComplete => Sys2Proof.Machine.execLoadComplete s
  | .mapReadComplete => Sys2Proof.Machine.execMapReadComplete s
  | .mapWriteComplete => Sys2Proof.Machine.execMapWriteComplete s
  | .copyStepComplete => Sys2Proof.Machine.execCopyStepComplete s
  | .stretchLimitExpiry => Sys2Proof.Machine.execStretchLimitExpiry s
  | .exchangeRestart => Sys2Proof.Machine.execExchangeRestart s
  | .commit => Sys2Proof.Machine.execCommit s
  | .copy => Sys2Proof.Machine.execCopy s
  | .lineEnable value => Sys2Proof.Machine.execLineEnable value s
  | .lineDisable value => Sys2Proof.Machine.execLineDisable value s
  | .lineRestart value => Sys2Proof.Machine.execLineRestart value s
  | .enableRefusedRead => Sys2Proof.Machine.execEnableRefusedRead s
  | .fgPeriodWrite gen value => Sys2Proof.Machine.execFgPeriodWrite gen value s
  | .fgPhaseWrite gen value => Sys2Proof.Machine.execFgPhaseWrite gen value s
  | .fgStart value => Sys2Proof.Machine.execFgStart value s
  | .fgStop value => Sys2Proof.Machine.execFgStop value s
  | .groupPolicyWrite value => Sys2Proof.Machine.execGroupPolicyWrite value s
  | .lineRelease value => Sys2Proof.Machine.execLineRelease value s
  | .groupRelease value => Sys2Proof.Machine.execGroupRelease value s
  | .tpCursorWrite value => Sys2Proof.Machine.execTpCursorWrite value s
  | .tpControlWrite value => Sys2Proof.Machine.execTpControlWrite value s
  | .tpDataWrite index value => Sys2Proof.Machine.execTpDataWrite index value s
  | .tpRead => Sys2Proof.Machine.execTpRead s
  | .tpWrite => Sys2Proof.Machine.execTpWrite s
  | .irqStatusWrite value => Sys2Proof.Machine.execIrqStatusWrite value s
  | .irqEnableWrite value => Sys2Proof.Machine.execIrqEnableWrite value s
  | .evqCountWrite value => Sys2Proof.Machine.execEvqCountWrite value s
  | .evqHead0Read => Sys2Proof.Machine.execEvqHead0Read s
  | .evqPop value => Sys2Proof.Machine.execEvqPop value s
  | .insertDataWrite value => Sys2Proof.Machine.execInsertDataWrite value s
  | .submit => Sys2Proof.Machine.execSubmit s
  | .discard => Sys2Proof.Machine.execDiscard s
  | .captureDataRead => Sys2Proof.Machine.execCaptureDataRead s
  | .capturePop value => Sys2Proof.Machine.execCapturePop value s
  | .registerWriteIgnored address value => Sys2Proof.Machine.execRegisterWriteIgnored address value s

end Sys2Proof.Machine
end

