-- ==== Sys2Proof/Machine/Pins.lean ====
section
/-! DEFINITION. The output pins of the physical lines as functions of the state (R3, R4, R122, R123): what a line drives on the
bit clock that begins in the state, and the bit clock and frame sync of an internally timed line. -/

namespace Sys2Proof.Machine

/-- Bit `15 - b % 16` of slot `b / 16`: the bit of a fixed frame that bit clock `b` carries, most significant bit first;
none in an undriven slot and past the last slot (R3, R4). -/
def FixedFrame.bitAt (f : FixedFrame) (b : Nat) : Option Bool :=
  (f.getD (b / Config.slotBits) none).map fun w => w.getLsbD (15 - b % Config.slotBits)

/-- The bit that line `n` drives at bit clock `b` of its frame: none while it is not running, while its driving is suspended
(R123), in an undriven slot and past the last slot. -/
def State.drivenBit (s : State) (n : PhysLine) (b : Nat) : Option Bool :=
  if s.running n.line && !(s.txas.get n.line).suspended then
    (s.txas.get n.line).fixed.bind fun f => FixedFrame.bitAt f b
  else none

/-- LTXEn at bit clock `b` (R4). -/
def State.ltxe (s : State) (n : PhysLine) (b : Nat) : Bool := (s.drivenBit n b).isSome

/-- LTXDn at bit clock `b`: the driven bit, low where a running line drives none (R4) and while the driving of an enabled line is
suspended, whether it runs or not (R123). The flag of a disabled line has no effect (R113). While the line is not running the spec
otherwise gives the pin no level: a free value (log 15). -/
def State.ltxd (s : State) (n : PhysLine) (b : Nat) : Bool :=
  if s.running n.line || ((s.lines.get n.line).enabled && (s.txas.get n.line).suspended) then (s.drivenBit n b).getD false
  else Config.ltxdNotRunning n b

/-- The bit clock of line `n` that is in progress `t` REFCLK periods after a frame start of its generator (R3): none while
LBCLKn is held inactive, that is in the gap after the last slot, in HUNT or DISABLED, with the generator stopped; and
none for an externally timed line, whose LBCLKn is an input. -/
def State.bitClockAt (s : State) (n : PhysLine) (t : Nat) : Option Nat :=
  let l := s.lines.get n.line
  match l.config.timing with
  | .external => none
  | .fg g =>
    if l.running && (s.gens.get g).running && decide (t < l.config.frameRefclks) then some (t / l.config.bitDivider)
    else none

/-- LFSn of an internally timed line: active for the first bit clock of each frame (R3). -/
def State.lfs (s : State) (n : PhysLine) (t : Nat) : Bool := s.bitClockAt n t == some 0

end Sys2Proof.Machine
end

