-- ==== Sys2Proof/Machine/Window.lean ====
section
/-! DEFINITION. The word that stands at each address of the register window (Chapter 11, Table 11-1, Table 11-2), and the plain
read of it on the host bus. A read changes nothing, but for the three registers whose read is a command (`decodeRead`), which
return the same word. -/

namespace Sys2Proof.Machine

/-- EXCH_STATUS (R96, Table 11-2). -/
def BankControl.status (b : BankControl) : Word :=
  BitVec.ofNat 16 (b.pair.code + b.active.code * 2 ^ 4 + bitAt (!b.stagedValid) 5 + b.result.code * 2 ^ 8)

/-- FG_STATUS (R5, R7, Table 11-2). -/
def State.fgStatus (s : State) : Word :=
  BitVec.ofNat 16 (bitAt (s.gens.get 0).running 0 + bitAt (s.gens.get 1).running 1
    + bitAt (s.gens.get 0).refused 4 + bitAt (s.gens.get 1).refused 5)

/-- GROUP_POLICY (R155, Table 11-2). -/
def State.groupPolicyWord (s : State) : Word :=
  BitVec.ofNat 16 ((s.policies.get 0).code + (s.policies.get 1).code * 2 ^ 2 + (s.policies.get 2).code * 2 ^ 4
    + (s.policies.get 3).code * 2 ^ 6)

/-- TP_CURSOR (R178). -/
def TablePort.cursorWord (tp : TablePort) : Word := BitVec.ofNat 16 (tp.index.toNat + tp.tableId.toNat * 2 ^ 12)

/-- TP_CONTROL (R180). -/
def TablePort.controlWord (tp : TablePort) : Word :=
  BitVec.ofNat 16 (bitAt tp.autoAdvance 0 + bitAt tp.clearOnRead 1 + tp.limit.toNat * 2 ^ 8)

/-- TP_DATA: a word that is not in use reads 0 (R179). -/
def TablePort.dataWord (tp : TablePort) (k : Fin 4) : Word :=
  if k.val < recordLength tp.tableId then tp.data.get k else 0

/-- TP_STATUS (R186). -/
def TablePort.statusWord (tp : TablePort) : Word := BitVec.ofNat 16 (tp.result.code + bitAt tp.wrapped 15)

/-- EVQ_COUNT (R171). -/
def EventQueue.countWord (q : EventQueue) : Word := BitVec.ofNat 16 (q.records.length + q.lost.toNat * 2 ^ 8)

/-- INSERT_STATUS (R129). -/
def HostBlock.insertStatus (h : HostBlock) : Word :=
  BitVec.ofNat 16 (h.compose.length + bitAt h.insertPending.isSome 8 + bitAt h.overFlag 12 + bitAt h.shortFlag 13
    + bitAt h.busyFlag 14)

/-- CAPTURE_STATUS (R129): the head frame's slot count is 0 when the queue is empty. -/
def HostBlock.captureStatus (h : HostBlock) : Word :=
  BitVec.ofNat 16 (h.captures.length + (h.captures.head?.map CapturedFrame.slotCount).getD 0 * 2 ^ 4
    + h.readIndex * 2 ^ 12)

/-- CAPTURE_MASK (R129): no flag when the queue is empty. -/
def HostBlock.captureMask (h : HostBlock) : Word :=
  BitVec.ofNat 16 (flagsWord ((h.captures.head?.map CapturedFrame.mask).getD []))

/-- The word that CAPTURE_DATA reads (R140). -/
def HostBlock.captureWord (h : HostBlock) : Word :=
  match h.captures with
  | [] => 0
  | c :: _ => c.words.getD h.readIndex 0

/-- LINE_ENABLE (R10). -/
def State.enableWord (s : State) : Word := lineSetWord (Tab.of fun n => (s.lines.get n).enabled)

/-- FAULT_SUMMARY (R160). -/
def State.faultSummary (s : State) : Word := lineSetWord (Tab.of fun n => s.faulted n)

/-- The word that stands at an address when a read of it is taken. Write-only registers and addresses that Table 11-1 does not name return 0
(R177). -/
def readRegister (s : State) (a : BitVec 6) : Word :=
  match a.toNat with
  | 0x00 => Config.deviceCode
  | 0x02 => s.bc.status
  | 0x03 => s.enableWord
  | 0x05 => lineSetWord s.enableRefused
  | 0x06 => (s.gens.get 0).period
  | 0x07 => (s.gens.get 0).phase
  | 0x08 => (s.gens.get 1).period
  | 0x09 => (s.gens.get 1).phase
  | 0x0A => s.fgStatus
  | 0x0B => s.groupPolicyWord
  | 0x0E => s.faultSummary
  | 0x10 => s.tp.cursorWord
  | 0x11 => s.tp.controlWord
  | 0x12 => s.tp.dataWord 0
  | 0x13 => s.tp.dataWord 1
  | 0x14 => s.tp.dataWord 2
  | 0x15 => s.tp.dataWord 3
  | 0x17 => s.tp.statusWord
  | 0x18 => s.irqStatus
  | 0x19 => s.irq.enable
  | 0x1A => s.evq.countWord
  | 0x1B => s.evq.snapshot.get 0
  | 0x1C => s.evq.latch.get 1
  | 0x1D => s.evq.latch.get 2
  | 0x1E => s.evq.latch.get 3
  | 0x21 => s.host.insertStatus
  | 0x22 => s.host.captureWord
  | 0x23 => s.host.captureStatus
  | 0x25 => s.host.captureMask
  | _ => 0

/-- A read on the host bus of a register whose read changes nothing: the word that stands there when the read is taken, and none
yet while RDY is inactive, since such a read is taken only when the operation in flight has ended (R176, log 11). -/
def State.busRead (s : State) (a : BitVec 6) : Option Word := if s.stretched then none else some (readRegister s a)

end Sys2Proof.Machine
end

