-- ==== Sys2Proof/Safety.lean ====
section
/-! DEFINITION. What counts as a sound state: the laws that the spec states of the device ("Law of the device"), as predicates
of the state, and the frames and outcomes that claims are stated with. -/

namespace Sys2Proof.Machine

/-- A record is a slip record. -/
def EventRecord.isSlip (r : EventRecord) : Bool := r.kind == .slipRepeat || r.kind == .slipDrop

/-- Two slip records of the same kind and pair of lines (R163). -/
def EventRecord.sameSlip (a b : EventRecord) : Prop :=
  a.isSlip = true ∧ a.kind = b.kind ∧ a.lineA = b.lineA ∧ a.lineB = b.lineB

/-- The event queue holds at most 32 records, and never two slip records of one kind and pair (R163). -/
def EventQueueLaw (s : State) : Prop :=
  s.evq.records.length ≤ Config.eventCapacity ∧ s.evq.records.Pairwise fun a b => ¬ a.sameSlip b

/-- Both banks have the canonical form. -/
def BanksCanonical (s : State) : Prop := Bank.wf s.bankA = true ∧ Bank.wf s.bankB = true

/-- Copy claims belong to a copy in progress (R91, R107): a waiting copy claim and a live granted copy step are for the copy
index of a COPYING pair, and there is never one of each. -/
def CopyClaimLaw (s : State) : Prop :=
  (∀ i, s.arb.copyClaim = some i → s.bc.pair = .copying ∧ i = s.bc.copyIndex)
    ∧ (∀ i, s.arb.grant = some (.copyStep i true) →
        s.bc.pair = .copying ∧ i = s.bc.copyIndex ∧ s.arb.copyClaim = none)

/-- A host WRITE to the staged bank is in flight only while the pair is STABLE (R82). -/
def StagedWriteLaw (s : State) : Prop :=
  ∀ e, s.arb.hostClaim = some (.write e) ∨ s.arb.grant = some (.hostWrite e) → s.bc.pair = .stable

/-- The banks that the lines read follow the pair state (R95): in STABLE and COPYING every line is on the active bank and the
adoption set is empty; in COMMIT_PENDING exactly its members are on the staged bank, and it has a member; a member is a
running line. -/
def BankPairLaw (s : State) : Prop :=
  CopyClaimLaw s ∧ (∀ n, s.bc.adoptionSet.get n = true → s.running n = true)
    ∧ match s.bc.pair with
      | .stable => ∀ n, s.bc.current.get n = s.bc.active ∧ s.bc.adoptionSet.get n = false
      | .copying => ∀ n, s.bc.current.get n = s.bc.active ∧ s.bc.adoptionSet.get n = false
      | .commitPending =>
        (∃ n, s.bc.adoptionSet.get n = true)
          ∧ ∀ n, s.bc.current.get n = if s.bc.adoptionSet.get n then s.bc.staged else s.bc.active

/-- While the pair is COPYING the staged bank equals the active bank at every index below the copy index (R107). The law
that keeps host writes out of the staged bank then stands with it. -/
def CopyLaw (s : State) : Prop :=
  BanksCanonical s ∧ StagedWriteLaw s
    ∧ (s.bc.pair = .copying →
        ∀ i, i < s.bc.copyIndex → Bank.read (s.bank s.bc.staged) i = Bank.read (s.bank s.bc.active) i)

/-- A line whose isolating condition holds has its suspension flag set (R123), and a line whose flag is set is in a span that
has included suspension (R127). -/
def SuspensionLaw (s : State) : Prop :=
  ∀ n, (s.isolating n = true → (s.txas.get n).suspended = true)
    ∧ ((s.txas.get n).suspended = true → (s.txas.get n).spanSuspended = true)

/-- Counters 0, 1 and 6 of the host line are 0 (R145), and the host line holds no own cause (R162). -/
def HostSupervisionLaw (s : State) : Prop :=
  s.counter hostLine CHECK_ERRORS = 0 ∧ s.counter hostLine SEQ_GAPS = 0 ∧ s.counter hostLine DAMAGED_FRAMES = 0
    ∧ (s.causes.get hostLine).own = false

/-- A damage window stands below 256 frames between two completions, and its damage count is no more than its frame count
(R148). -/
def WindowLaw (s : State) : Prop :=
  ∀ n, (s.windows.get n).frames < Config.windowFrames ∧ (s.windows.get n).damaged ≤ (s.windows.get n).frames

/-- At most one table-port operation is in flight, and the stretch-limit timer runs exactly while its claim waits (R176,
R185). -/
def TablePortLaw (s : State) : Prop :=
  ¬ (s.arb.hostClaim.isSome = true ∧ s.arb.grant.any Grant.isHost = true)
    ∧ s.tp.timer.isSome = s.arb.hostClaim.isSome

/-- An access waits only while the bus is stretched (R176). -/
def ReadyLaw (s : State) : Prop := s.bus.held ≠ [] → s.stretched = true

/-- The collections of the host line block (R129 to R133, R139, R140): no more composed words than the host line has slots, a
pending frame of as many words as the host line has slots, at most 8 captured frames, and a read index within the head
frame, 0 on an empty queue. -/
def HostBlockLaw (s : State) : Prop :=
  s.host.compose.length ≤ s.hostSlots
    ∧ (∀ f, s.host.insertPending = some f → f.slotCount = s.hostSlots ∧ f.words.length = s.hostSlots)
    ∧ s.host.captures.length ≤ Config.captureCapacity
    ∧ match s.host.captures with
      | [] => s.host.readIndex = 0
      | c :: _ => s.host.readIndex ≤ c.slotCount - 1

/-- The receiver of one line (R9 to R22): a line is enabled exactly when its receiver is not DISABLED; a receiver in VERIFY or
LOST is that of an externally timed line; the frame timer is armed exactly in VERIFY and in the LOCKED of an externally timed
line (R12); the verify count is 1 or 2 in VERIFY and 0 elsewhere; the consecutive-early count is at most 1, and 0 outside
LOCKED. -/
def LineUnit.law (l : LineUnit) : Prop :=
  (l.enabled = true ↔ l.receiver ≠ .disabled)
    ∧ (l.receiver = .verify ∨ l.receiver = .lost → l.config.timing = .external)
    ∧ (l.timerArmed = true ↔ l.receiver = .verify ∨ (l.receiver = .locked ∧ l.config.timing = .external))
    ∧ (if l.receiver = .verify then l.verifyCount = 1 ∨ l.verifyCount = 2 else l.verifyCount = 0)
    ∧ l.earlyCount ≤ 1 ∧ (l.receiver ≠ .locked → l.earlyCount = 0)

/-- The receivers of all lines; the host line is never externally timed (R2), so it has no VERIFY and no LOST (R128). -/
def ReceiverLaw (s : State) : Prop :=
  (∀ n, (s.lines.get n).law) ∧ (s.lines.get hostLine).config.timing ≠ .external

/-- The parts of a buffer that have meaning follow its state (R36, R39, Table 3-1): a FREE or FILLING buffer has no frame
number, no damaged flag and no holder; a READY or RETIRED buffer has a frame number, and a RETIRED one a holder. -/
def BufferLaw (b : Buffer) : Prop :=
  ((b.state = .free ∨ b.state = .filling) → b.number = none ∧ b.damaged = false ∧ ∀ y, b.holders.get y = false)
    ∧ ((b.state = .ready ∨ b.state = .retired) → ∃ f, b.number = some f)
    ∧ (b.state = .retired → ∃ y, b.holders.get y = true)

/-- A store has at most one FILLING buffer, and receives a frame only while its line is a physical line that runs (R42). -/
def StoreLaw (s : State) : Prop :=
  ∀ x, (∀ i, BufferLaw ((s.stores.get x).buffers.get i))
    ∧ (∀ i j, ((s.stores.get x).buffers.get i).state = .filling → ((s.stores.get x).buffers.get j).state = .filling
        → i = j)
    ∧ (∀ i, ((s.stores.get x).buffers.get i).state = .filling → x ≠ hostLine ∧ s.running x = true)
    ∧ ((s.stores.get x).discarding = true → x ≠ hostLine ∧ s.running x = true)

/-- A load of line `y` is outstanding: its claim waits, or its granted load has not lost its use (R85). -/
def State.loadOutstanding (s : State) (y : Line) : Prop :=
  y ∈ s.arb.loadQueue ∨ ∃ p, s.arb.grant = some (.load y p true)

/-- The load claims (R85, R86): at most one outstanding load of a line, and only of a running line. -/
def LoadLaw (s : State) : Prop :=
  s.arb.loadQueue.Nodup
    ∧ (∀ y, s.loadOutstanding y → s.running y = true)
    ∧ (∀ y p, s.arb.grant = some (.load y p true) → y ∉ s.arb.loadQueue)

/-- Readers and holder sets agree (R56, R57): reader (y, x) holds buffer i exactly when y is a member of its holder set, so y
holds at most one buffer of a store; the buffer carries the frame number that the cursor names; a line that does not run
or whose load is outstanding holds nothing (R61, R71). -/
def HoldLaw (s : State) : Prop :=
  (∀ y x i, ((s.stores.get x).buffers.get i).holders.get y = true ↔ ((s.readers.get y).get x).held = some i)
    ∧ (∀ y x i, ((s.readers.get y).get x).held = some i →
        ((s.stores.get x).buffers.get i).number = ((s.readers.get y).get x).cursor)
    ∧ (∀ y, s.running y = false ∨ s.loadOutstanding y → ∀ x, ((s.readers.get y).get x).held = none)

/-- The laws of receivers, stores, loads and holds together: each needs the others to be kept. -/
def HoldingLaw (s : State) : Prop := ReceiverLaw s ∧ StoreLaw s ∧ LoadLaw s ∧ HoldLaw s

/-- The configuration stays within its ranges (R1, R5, R180), and every enabled internally timed line fits the period of
its generator (R7, R10). -/
def ConfigLaw (s : State) : Prop :=
  (∀ n, (s.lines.get n).config.inRange n = true)
    ∧ (∀ g, 64 ≤ (s.gens.get g).period.toNat ∧ (s.gens.get g).phase.toNat < (s.gens.get g).period.toNat)
    ∧ (∀ n g, (s.lines.get n).enabled = true → (s.lines.get n).config.fits g (s.gens.get g).period = true)
    ∧ 1 ≤ s.tp.limit.toNat

/-! ### Frame numbers (R38) -/

/-- The next frame number of the store is newer than those of its READY buffers. -/
def Store.NextNumberIsNewest (st : Store) : Prop :=
  ∀ j g, (st.buffers.get j).state = .ready → (st.buffers.get j).number = some g → newer (st.frameCount + 1) g = true

/-- The frame numbers of the READY buffers are distinct, and each lies less than 2^31 counts below the line frame count. R38
says that they lie within a few counts; in runs of 2^31 frames that nobody reads it can fail, so it is a premise of claims
and no law that every step keeps (log 17). -/
def Store.NumbersCompare (st : Store) : Prop :=
  (∀ j g, (st.buffers.get j).state = .ready → (st.buffers.get j).number = some g → (st.frameCount - g).toNat < 2 ^ 31)
    ∧ ∀ i j g, (st.buffers.get i).state = .ready → (st.buffers.get j).state = .ready →
        (st.buffers.get i).number = some g → (st.buffers.get j).number = some g → i = j

/-! ### Outcomes -/

/-- The FAULT records of the lines that gain GROUP, those of the named lines that lack it, in increasing order of line number
(R152, R154). -/
def groupFaults (s : State) (gains : Line → Bool) : List EventRecord :=
  (allLines.filter fun m => gains m && !(s.causes.get m).group).map fun m => ⟨.fault, m, 0, 1, 3, s.stampOf m⟩

/-- The lines that `leave` names leave the adoption set, each with the active bank for its current bank, and the last member to
leave completes the commit (R100, R101, R104): the pair is STABLE, COMMIT_DONE is set, and its event stands among the records
behind those of before, unless the list is full. Otherwise no commit completes. Nothing else of bank control changes. -/
def AdoptionBy (leave : Line → Bool) (s t : State) : Prop :=
  let last := (∃ n, s.bc.adoptionSet.get n = true) ∧ ∀ n, s.bc.adoptionSet.get n = true → leave n = true
  t.bc = { s.bc with pair := t.bc.pair, current := t.bc.current, adoptionSet := t.bc.adoptionSet }
    ∧ (∀ n, t.bc.adoptionSet.get n = (s.bc.adoptionSet.get n && !leave n)
      ∧ t.bc.current.get n = if (s.bc.adoptionSet.get n && leave n) = true then s.bc.active else s.bc.current.get n)
    ∧ ∃ sent, t.evq.records = s.evq.records ++ sent
      ∧ (last → t.bc.pair = .stable ∧ t.irq.commitDone = true
        ∧ (t.evq.records.length < 32 → ⟨.commitDone, 0, 0, 1, if s.bc.active = .B then 1 else 0, 0⟩ ∈ sent))
      ∧ (¬ last → t.bc.pair = s.bc.pair ∧ t.irq.commitDone = s.irq.commitDone ∧ ∀ r ∈ sent, r.kind ≠ .commitDone)

/-- Buffer `b` after the lines that `leave` names have left its holder set (R40): a RETIRED buffer whose last holder left is
FREE, with no frame number and a clear damaged flag; any other keeps all but those holders. -/
def Buffer.LeftBy (leave : Line → Bool) (b c : Buffer) : Prop :=
  (∀ z, c.holders.get z = (b.holders.get z && !leave z))
    ∧ if b.state = .retired ∧ (∃ z, b.holders.get z = true) ∧ ∀ z, b.holders.get z = true → leave z = true then
        c = { b with state := .free, number := none, damaged := false, holders := c.holders }
      else c = { b with holders := c.holders }

/-- Buffer `b` after its own line has stopped and the lines that `leave` names have left its holder set (R40, R50): a FREE one
stays as it is; one with a frame and another holder is RETIRED, has lost those holders and keeps the rest; any other is FREE,
with no frame number and a clear damaged flag. Only a FILLING buffer's words may differ, by bits sampled before the stop. -/
def Buffer.EmptiedBy (leave : Line → Bool) (b c : Buffer) : Prop :=
  (b.state ≠ .filling → c.words = b.words)
    ∧ (b.state = .free → c = { b with holders := c.holders })
    ∧ ((b.state = .ready ∨ b.state = .retired) → (∃ z, b.holders.get z = true ∧ leave z = false) →
        c = { b with state := .retired, holders := c.holders }
        ∧ ∀ z, c.holders.get z = (b.holders.get z && !leave z))
    ∧ (b.state = .filling ∨ ((b.state = .ready ∨ (b.state = .retired ∧ ∃ z, b.holders.get z = true))
          ∧ ∀ z, b.holders.get z = true → leave z = true) →
        c.state = .free ∧ c.number = none ∧ c.damaged = false)

/-- The releases at the boundaries of the lines that `leave` names (R60). Each of them holds nothing; its cursor is kept where
it held a buffer that was not RETIRED, or none, and is NONE where the buffer that it held was RETIRED. In the store of any
other line each buffer has lost those holders and nothing else, and the rest of the store is kept. In their own stores, where a
frame completes and another begins besides, a RETIRED buffer with another holder has lost those holders, and one that they
alone held is RETIRED no more: FREE, or the one that the new frame took (R45, R48). -/
def HoldsReleased (leave : Line → Bool) (s t : State) : Prop :=
  (∀ y x, leave y = true → ((t.readers.get y).get x).held = none
    ∧ (((s.readers.get y).get x).held = none →
      ((t.readers.get y).get x).cursor = ((s.readers.get y).get x).cursor)
    ∧ ∀ i, ((s.readers.get y).get x).held = some i →
      (((s.stores.get x).buffers.get i).state ≠ .retired →
        ((t.readers.get y).get x).cursor = ((s.readers.get y).get x).cursor)
      ∧ (((s.stores.get x).buffers.get i).state = .retired → ((s.stores.get x).buffers.get i).holders.get y = true →
        ((t.readers.get y).get x).cursor = none))
  ∧ (∀ x, leave x = false → t.stores.get x = { s.stores.get x with buffers := (t.stores.get x).buffers })
  ∧ ∀ x i,
    let b := (s.stores.get x).buffers.get i
    let c := (t.stores.get x).buffers.get i
    (leave x = false → b.LeftBy leave c)
    ∧ (b.state = .retired → (∃ z, b.holders.get z = true ∧ leave z = false) → b.LeftBy leave c)
    ∧ (b.state = .retired → (∃ z, b.holders.get z = true) → (∀ z, b.holders.get z = true → leave z = true) →
        c.state = .free ∨ c.state = .filling ∨ (x = hostLine ∧ c.state = .ready))

/-- The stops of the lines that `leave` names (R51, R71). Each of them holds nothing and has every cursor NONE, and its store
is emptied with its frame count kept. In the store of any other line each buffer has lost those holders, and nothing else has
changed there; the readers of the other lines are kept. -/
def HoldsDropped (leave : Line → Bool) (s t : State) : Prop :=
  (∀ y, t.readers.get y = if leave y = true then Tab.all 9 ⟨none, none⟩ else s.readers.get y)
  ∧ ∀ x,
    (t.stores.get x).frameCount = (s.stores.get x).frameCount
    ∧ (leave x = false → t.stores.get x = { s.stores.get x with buffers := (t.stores.get x).buffers }
      ∧ ∀ i, ((s.stores.get x).buffers.get i).LeftBy leave ((t.stores.get x).buffers.get i))
    ∧ (leave x = true → (t.stores.get x).discarding = false ∧ (t.stores.get x).overrunRun = false
      ∧ ∀ i, ((s.stores.get x).buffers.get i).EmptiedBy leave ((t.stores.get x).buffers.get i))

/-- The load claims after those of the lines that `leave` names are withdrawn and those that `placed` lists are placed (R84,
R85): the other claims keep their order before the new ones, a granted load of such a line loses its use, and nothing else of
the arbiter changes. -/
def LoadsBy (leave : Line → Bool) (placed : List Line) (s t : State) : Prop :=
  t.arb = { s.arb with loadQueue := (s.arb.loadQueue.filter fun m => !leave m) ++ placed, grant := t.arb.grant }
    ∧ (∀ y program live, s.arb.grant = some (.load y program live) →
        t.arb.grant = some (.load y program (live && !leave y)))
    ∧ ((∀ y program live, s.arb.grant ≠ some (.load y program live)) → t.arb.grant = s.arb.grant)

/-- The suspension test at the boundaries of the lines that `tested` names (R123, R125): after it the flag of such a line is
clear where its isolating condition does not hold then; the flag of any line is set where the condition holds, if that law held
of the line before; and the flag of a line that is not named stays set, and is set anew only where the condition holds. So does
what the span of its frame has seen (R127). No cause is lost. -/
def SuspensionTested (tested : Line → Bool) (s t : State) : Prop :=
  ∀ n, (∀ k, (s.causes.get n).has k = true → (t.causes.get n).has k = true)
    ∧ ((s.isolating n = true → (s.txas.get n).suspended = true) →
        t.isolating n = true → (t.txas.get n).suspended = true)
    ∧ (tested n = true → t.isolating n = false → (t.txas.get n).suspended = false)
    ∧ (tested n = false →
      ((s.txas.get n).suspended = true → (t.txas.get n).suspended = true)
      ∧ ((t.txas.get n).suspended = true → (s.txas.get n).suspended = true ∨ t.isolating n = true)
      ∧ ((s.txas.get n).spanSuspended = true → (t.txas.get n).spanSuspended = true)
      ∧ ((t.txas.get n).spanSuspended = true → (s.txas.get n).spanSuspended = true ∨ t.isolating n = true))

/-- The frames of the lines that `ended` names have ended: they have no fixed frame (R114, R122), and every other line keeps
its own. Slot programs, views and last words are kept (R121); the flags of a suspension are the subject of
`SuspensionTested`. -/
def FramesEnded (ended : Line → Bool) (s t : State) : Prop :=
  ∀ m, t.txas.get m = { s.txas.get m with
    fixed := if ended m = true then none else (s.txas.get m).fixed
    suspended := (t.txas.get m).suspended
    spanSuspended := (t.txas.get m).spanSuspended }

/-- What judging the frames of the lines that `judged` names does to the causes (R148, R149, R154): such a line may gain
DEGRADED, and a line gains GROUP where its group's policy is ISOLATE_GROUP and another line of the group gained DEGRADED. -/
def DegradedSpreads (judged : Line → Bool) (s t : State) : Prop :=
  let gained : Line → Prop := fun m => (t.causes.get m).degraded = true ∧ (s.causes.get m).degraded = false
  ∀ n, (t.causes.get n).lost = (s.causes.get n).lost
    ∧ (gained n → judged n = true ∧ n ≠ hostLine)
    ∧ ((t.causes.get n).group = true ↔ (s.causes.get n).group = true
      ∨ (s.policyOf n = .isolateGroup ∧ ∃ m, m ≠ n ∧ s.groupOf m = s.groupOf n ∧ gained m))

/-- Of the interrupt block nothing changes but COMMIT_DONE and EVQ_LOSS, which stays set; the latched record is kept; and where
the event list still has room, no event was lost (R165, R167). -/
def OnlySends (s t : State) : Prop :=
  t.irq = { s.irq with commitDone := t.irq.commitDone, evqLoss := t.irq.evqLoss }
    ∧ (s.irq.evqLoss = true → t.irq.evqLoss = true) ∧ t.evq.latch = s.evq.latch
    ∧ (t.evq.records.length < 32 → t.irq.evqLoss = s.irq.evqLoss ∧ t.evq.lost = s.evq.lost)

/-- What a boundary of each of the lines that `bounds` names does beside the frames that end in their stores. -/
def BoundariesOf (bounds : Line → Bool) (s t : State) : Prop :=
  HoldsReleased bounds s t ∧ SuspensionTested bounds s t ∧ AdoptionBy bounds s t ∧ FramesEnded bounds s t
    ∧ DegradedSpreads bounds s t
    ∧ (∃ placed : List Line, placed.Nodup ∧ (∀ n, n ∈ placed ↔ bounds n = true) ∧ LoadsBy bounds placed s t)
    ∧ OnlySends s t

/-- What the stops of the lines that `stop` names do beside their receivers and their fixed frames. -/
def LinesStopped (stop : Line → Bool) (s t : State) : Prop :=
  HoldsDropped stop s t ∧ LoadsBy stop [] s t ∧ AdoptionBy stop s t ∧ OnlySends s t
    ∧ ∀ n, stop n = true → t.windows.get n = ⟨0, 0, false⟩

/-- `t` is what the accesses leave that wait when RDY returns active in `u`: each is carried out in turn, until one of them
starts a map operation, and those behind it wait on. -/
def TakenInOrder : List Instr → State → State → Prop
  | [], u, t => t = u
  | c :: cs, u, t =>
    (u.stretched = true ∧ t = u.withBus { u.bus with held := c :: cs })
      ∨ (u.stretched = false ∧ ∃ v, exec c u = .next v ∧ TakenInOrder cs v t)

/-- The four words show the status of line `n`, field by field (Table 11-7): the receiver, the verify count, the running flag,
the fault state and its causes, the bank, the adoption and the newest ready frame in word 0, the number of that frame in word
1, and the four buffers in the bytes of words 2 and 3. -/
def ShowsLineStatus (s : State) (n : Line) (data : Tab Word 4) : Prop :=
  let l := s.lines.get n
  let c := s.causes.get n
  let st := s.stores.get n
  let w := data.get 0
  (w.field 0 3 = (match l.receiver with | .disabled => 0 | .hunt => 1 | .verify => 2 | .locked => 3 | .lost => 4)
    ∧ w.field 4 2 = l.verifyCount
    ∧ ∀ b, b ∉ ([0, 1, 2, 4, 5] : List Nat) → (w.getLsbD b = true ↔
      (b = 6 ∧ s.running n = true) ∨ (b = 8 ∧ c.faulted = true) ∨ (b = 9 ∧ c.lost = true)
      ∨ (b = 10 ∧ c.degraded = true) ∨ (b = 11 ∧ c.group = true) ∨ (b = 12 ∧ s.bc.current.get n = .B)
      ∨ (b = 13 ∧ s.bc.adoptionSet.get n = true) ∨ (b = 15 ∧ st.newest ≠ none)))
    ∧ (∀ i f, st.newest = some (i, f) → data.get 1 = f.setWidth 16) ∧ (st.newest = none → data.get 1 = 0)
    ∧ ∀ i : Fin 4,
      let b := st.buffers.get i
      let byte := (data.get (if i.val < 2 then 2 else 3)).field (8 * (i.val % 2)) 8
      let shown := b.state = .ready ∨ b.state = .retired
      byte % 4 = (match b.state with | .free => 0 | .filling => 1 | .ready => 2 | .retired => 3)
        ∧ (byte / 4 % 2 = 1 ↔ shown ∧ b.damaged = true) ∧ byte / 8 % 2 = 0
        ∧ (shown → byte / 16 = (allLines.filter fun y => b.holders.get y).length) ∧ (¬ shown → byte / 16 = 0)

/-! ### Frames -/

/-- The parts of the state. -/
inductive Field where
  | lines | enableRefused | gens | stores | readers | bankA | bankB | bc | arb | txas | host | counters | windows
  | causes | policies | evq | irq | tp | bus | pending | received | incoming
deriving DecidableEq, Repr

/-- The part is the same in both states. -/
def Field.same (s t : State) : Field → Prop
  | .lines => t.lines = s.lines
  | .enableRefused => t.enableRefused = s.enableRefused
  | .gens => t.gens = s.gens
  | .stores => t.stores = s.stores
  | .readers => t.readers = s.readers
  | .bankA => t.bankA = s.bankA
  | .bankB => t.bankB = s.bankB
  | .bc => t.bc = s.bc
  | .arb => t.arb = s.arb
  | .txas => t.txas = s.txas
  | .host => t.host = s.host
  | .counters => t.counters = s.counters
  | .windows => t.windows = s.windows
  | .causes => t.causes = s.causes
  | .policies => t.policies = s.policies
  | .evq => t.evq = s.evq
  | .irq => t.irq = s.irq
  | .tp => t.tp = s.tp
  | .bus => t.bus = s.bus
  | .pending => t.pending = s.pending
  | .received => t.received = s.received
  | .incoming => t.incoming = s.incoming

/-- `t` differs from `s` in no part of the state but those named. -/
def OnlyChanges (fs : List Field) (s t : State) : Prop := ∀ f, f ∉ fs → f.same s t

/-- `t` differs from `s` in no entry of a table of lines but that of line `n`. -/
def OnlyLine {α : Type} (n : Line) (a b : Tab α 9) : Prop := ∀ m, m ≠ n → b.get m = a.get m

end Sys2Proof.Machine
end

