-- ==== Sys2Proof/WellFormed.lean ====
section
/-! DEFINITION. Which commands the outside can send. Operand types rule out most malformed commands; the checks here rule
out the rest. `exec` gives every command a meaning, well-formed or not, but for an ill-formed REGISTER_WRITE_IGNORED. -/

namespace Sys2Proof

/-- No element occurs twice. -/
def noRepeats : List Part → Bool
  | [] => true
  | p :: ps => !(ps.contains p) && noRepeats ps

/-- The command can be sent: an order names no side twice, a START or STOP command carries its code (Table 11-2), and an
ignored write is one that R177 ignores. -/
def Instr.wellFormed : Instr → Bool
  | .deviceReset => true
  | .syncArrival _ _ _ => true
  | .timerExpiry _ _ => true
  | .fgFrameStart _ _ order => noRepeats order.sides
  | .arbiterGrant => true
  | .loadComplete => true
  | .mapReadComplete => true
  | .mapWriteComplete => true
  | .copyStepComplete => true
  | .stretchLimitExpiry => true
  | .exchangeRestart => true
  | .commit => true
  | .copy => true
  | .lineEnable _ => true
  | .lineDisable _ => true
  | .lineRestart _ => true
  | .enableRefusedRead => true
  | .fgPeriodWrite _ _ => true
  | .fgPhaseWrite _ _ => true
  | .fgStart v => fgHasStart v
  | .fgStop v => fgHasStop v
  | .groupPolicyWrite _ => true
  | .lineRelease _ => true
  | .groupRelease _ => true
  | .tpCursorWrite _ => true
  | .tpControlWrite _ => true
  | .tpDataWrite _ _ => true
  | .tpRead => true
  | .tpWrite => true
  | .irqStatusWrite _ => true
  | .irqEnableWrite _ => true
  | .evqCountWrite _ => true
  | .evqHead0Read => true
  | .evqPop _ => true
  | .insertDataWrite _ => true
  | .submit => true
  | .discard => true
  | .captureDataRead => true
  | .capturePop _ => true
  | .registerWriteIgnored a v => writeIgnored a v

end Sys2Proof
end

