-- ==== Sys2Proof/Certificates/Slice0/Obligations.lean ====
section
/-! DEFINITION. The statements for the provers. -/

section Slice0Statements
open Sys2Proof Sys2Proof.Machine

/-! ### The step, the bus and the register window -/

/-- A step carries out the command at the front of the queue on the state with the queue's rest. What it does on an empty queue
is the model's choice (log 1): the next bit clock falls on the line on which the next bit stands, and with no bit there the
block idles. -/
def Obligations.StepRunsFrontCommand : Prop :=
  (∀ (c : Instr) (rest : List Instr) (s : State), step (s.withPending (c :: rest)) = exec c (s.withPending rest))
    ∧ (∀ s : State, s.pending = [] → s.incoming = [] → step s = .next s)
    ∧ ∀ (p : PhysLine) (b : Bool) (rest : List (PhysLine × Bool)) (s : State), s.pending = [] →
      s.incoming = (p, b) :: rest → step s = .next (bitClock p.line b (s.withIncoming rest))

/-- Well-formed host accesses begun while RDY is inactive wait behind those that wait already, and change nothing else; a read
that is no command gets no word then, and while RDY is active the word that stands at its address (11 section 11.1). That
the accesses are kept in the order in which they began is the model's choice (log 9). -/
def Obligations.HostAccessWaitsWhileStretched : Prop :=
  (∀ (c : Instr) (s : State), c.isHostAccess = true → c.wellFormed = true → s.stretched = true →
    exec c s = .next (s.withBus { s.bus with held := s.bus.held ++ [c] }))
  ∧ ∀ (a : BitVec 6) (s : State), (s.stretched = true → s.busRead a = none)
    ∧ (s.stretched = false → s.busRead a = some (readRegister s a))

/-- At the end of a map READ, of a map WRITE and at a TIMEOUT the accesses that wait are taken, each on the state that the one
before it leaves, up to one that starts a map operation again; those behind it wait on. 11 section 11.1 says that they are
taken after the end; that they are taken in that very step and in the order in which they began is the model's choice
(log 9). -/
def Obligations.WaitingAccessIsTakenWhenReadyReturns : Prop :=
  ∀ s : State, (∀ c ∈ s.bus.held, c.isHostAccess = true ∧ c.wellFormed = true) →
    let free := s.withBus { s.bus with held := [] }
    (∀ e, s.arb.grant = some (.hostRead e) →
      ∃ t, exec .mapReadComplete s = .next t ∧ TakenInOrder s.bus.held (finishMapRead e free) t)
    ∧ (∀ e, s.arb.grant = some (.hostWrite e) →
      ∃ t, exec .mapWriteComplete s = .next t ∧ TakenInOrder s.bus.held (finishMapWrite e free) t)
    ∧ ∀ op, s.arb.hostClaim = some op →
      ∃ t, exec .stretchLimitExpiry s = .next t ∧ TakenInOrder s.bus.held (timeOut free) t

/-- Decode of encode: the access that issues a well-formed command decodes to commands among which it stands, with every
operand as it was. One write that is two rows decodes to both (log 10). -/
def Obligations.DecodeOfEncodeFindsTheCommand : Prop :=
  ∀ (i : Instr) (a : BusAccess), i.wellFormed = true → encodeAccess i = some a → i ∈ decodeAccess a

/-- Every command of a bus access is a well-formed host access that has an encoding of its own. -/
def Obligations.DecodedCommandsAreWellFormed : Prop :=
  ∀ (a : BusAccess) (c : Instr), c ∈ decodeAccess a →
    c.wellFormed = true ∧ c.isHostAccess = true ∧ ∃ b, encodeAccess c = some b ∧ c ∈ decodeAccess b

/-- A configuration record or a map entry that is read and written back unchanged is taken as the identical record (11 section
11.5). Which two words are no map entry (R81, R187): a kind code of 3, a source line above 8, a slot of 64 or more, and of 16
or more where the source is the host line. Which three words are no configuration record of a line (R2, R187): a timing source
code of 3, a slot count or a bit divider outside its range, and for the host line EXTERNAL timing or check enable on. From any
others each field is read at its place. -/
def Obligations.RecordsReadBackAreTakenUnchanged : Prop :=
  (∀ (n : Line) (c : LineConfig), c.inRange n = true → LineConfig.decode? n c.word0 c.word1 c.word2 = some c)
    ∧ (∀ e : MapEntry, ¬ (e.sourceLine = hostLine ∧ 16 ≤ e.sourceSlot.val) →
        MapEntry.decode? e.word0 e.word1 = some e)
    ∧ (∀ w0 w1 : Word,
      (MapEntry.decode? w0 w1 = none ↔ w0.field 0 2 = 3 ∨ 9 ≤ w0.field 4 4 ∨ 64 ≤ w0.field 8 7
        ∨ (w0.field 4 4 = 8 ∧ 16 ≤ w0.field 8 7))
      ∧ ∀ e, MapEntry.decode? w0 w1 = some e →
        w0.field 0 2 = (match e.kind with | .idle => 0 | .constant => 1 | .route => 2)
        ∧ (e.policy = .fill ↔ w0.getLsbD 2 = true) ∧ e.sourceLine.val = w0.field 4 4
        ∧ e.sourceSlot.val = w0.field 8 7 ∧ e.value = w1)
    ∧ ∀ (n : Line) (w0 w1 w2 : Word),
      (LineConfig.decode? n w0 w1 w2 = none ↔ w0.field 8 2 = 3
        ∨ (n ≠ hostLine ∧ (w0.field 0 7 < 2 ∨ 64 < w0.field 0 7))
        ∨ (n = hostLine ∧ (w0.field 0 7 < 1 ∨ 16 < w0.field 0 7 ∨ w0.field 8 2 = 0 ∨ w0.getLsbD 12 = true))
        ∨ w1.field 0 7 < 1 ∨ 64 < w1.field 0 7)
      ∧ ∀ c, LineConfig.decode? n w0 w1 w2 = some c →
        c.slotCount = w0.field 0 7
        ∧ w0.field 8 2 = (match c.timing with | .external => 0 | .fg g => g.val + 1)
        ∧ c.bitDivider = w1.field 0 7 ∧ c.checkEnable = w0.getLsbD 12 ∧ c.group.val = w1.field 8 2
        ∧ c.damageThreshold = w2.field 0 8 ∧ c.autoRehunt = w1.getLsbD 12

/-- A write at a read-only or unnamed address, or with a code that names no command, is ignored; DEVICE_CODE reads 0908h,
and write-only and unnamed addresses read 0 (11 sections 11.1 and 11.2). -/
def Obligations.IgnoredWritesAndEmptyReads : Prop :=
  (∀ (a : BitVec 6) (v : Word) (s : State),
      (a ∈ ([0x00, 0x02, 0x05, 0x0E, 0x0F, 0x17, 0x1B, 0x1C, 0x1D, 0x1E, 0x22, 0x23, 0x25] : List (BitVec 6))
        ∨ 0x26 ≤ a.toNat ∨ (a = 0x01 ∧ v.field 0 4 ∉ [1, 2, 3])
        ∨ ((a = 0x16 ∨ a = 0x21) ∧ v.field 0 2 ∉ [1, 2])) →
      s.stretched = false → exec (.registerWriteIgnored a v) s = .next s)
    ∧ ∀ (a : BitVec 6) (s : State),
      readRegister s 0x00 = 0x0908
        ∧ (a ∈ ([0x01, 0x04, 0x0C, 0x0D, 0x0F, 0x16, 0x1F, 0x20, 0x24] : List (BitVec 6)) ∨ 0x26 ≤ a.toNat →
            readRegister s a = 0)

/-- The three reads that change state return the word of their register and change nothing but their own register and
D[15:0]: ENABLE_REFUSED is cleared, with bits 15 to 9 of the word 0 (R177), EVQ_HEAD0 latches the head record, CAPTURE_DATA
advances the read index up to the last slot of the head frame (01 section 1.4, 10 section 10.3, 08 section 8.4). The four
words of a record (Table 11-8): kind, line A and line B in word 0, whose bits 15 to 12 are 0, then count, detail and
stamp. -/
def Obligations.ReadsThatChangeState : Prop :=
  (∀ s : State, s.stretched = false →
    (∃ t, exec .enableRefusedRead s = .next t ∧ (∀ n, lineBit t.bus.readData n = s.enableRefused.get n)
      ∧ (∀ b, 9 ≤ b → t.bus.readData.getLsbD b = false)
      ∧ (∀ n, t.enableRefused.get n = false) ∧ OnlyChanges [.enableRefused, .bus] s t ∧ t.bus.held = s.bus.held)
    ∧ (∃ t, exec .evqHead0Read s = .next t ∧ t.bus.readData = t.evq.latch.get 0
      ∧ (match s.evq.records with
          | [] => ∀ k, t.evq.latch.get k = 0
          | r :: _ => t.evq.latch = r.words)
      ∧ t.evq.records = s.evq.records ∧ t.evq.lost = s.evq.lost
      ∧ OnlyChanges [.evq, .bus] s t ∧ t.bus.held = s.bus.held)
    ∧ (∃ t, exec .captureDataRead s = .next t
      ∧ (match s.host.captures with
          | [] => t.bus.readData = 0 ∧ t.host = s.host
          | c :: _ => t.bus.readData = c.words.getD s.host.readIndex 0
              ∧ t.host = { s.host with readIndex :=
                  if s.host.readIndex < c.slotCount - 1 then s.host.readIndex + 1 else s.host.readIndex })
      ∧ OnlyChanges [.host, .bus] s t ∧ t.bus.held = s.bus.held))
  ∧ ∀ r : EventRecord,
    (r.words.get 0).field 0 4 = (match r.kind with
      | .sync => 1 | .fault => 2 | .release => 3 | .slipRepeat => 4 | .slipDrop => 5 | .overrun => 6
      | .commitDone => 7 | .copyDone => 8 | .insertUnderrun => 9 | .captureOverflow => 10)
    ∧ (r.words.get 0).field 4 4 = r.lineA.val ∧ (r.words.get 0).field 8 4 = r.lineB.val
    ∧ (r.words.get 0).field 12 4 = 0
    ∧ r.words.get 1 = r.count ∧ r.words.get 2 = r.detail ∧ r.words.get 3 = r.stamp

/-! ### Reset and exchange restart -/

/-- A device reset gives the state after reset and keeps the model's own inputs, and the registers then read as the device
reset column of Table 11-1 says. Beyond the values of the spec the equation holds the model's choices: the queue and the
bits to come are kept (logs 1 and 4), accesses that wait are dropped (log 9), D[15:0] carries 0 (log 11), and the fields to
which the spec gives no reset value have that of log 14. -/
def Obligations.DeviceResetGivesResetValues : Prop :=
  (∀ s : State, exec .deviceReset s = .next ((State.reset.withPending s.pending).withIncoming s.incoming))
    ∧ ∀ a : BitVec 6, readRegister State.reset a
        = if a = 0x00 then 0x0908 else if a = 0x06 ∨ a = 0x08 then 0x0200 else if a = 0x11 then 0xFF00 else 0

/-- An exchange restart (01 section 1.7, 06 section 6.5): configuration, enables, generators, banks, policies, table port and
IRQ_ENABLE are kept; every enabled line hunts and no line runs; stores, readers, assemblers, host line block, counters,
windows, causes, queue and sticky bits are as after a device reset, but for the words of the buffers. The value that the span
flag of an assembler then has is the model's choice (log 14). A pending commit completes silently and a copy is aborted; the
adoption set is empty (R110). Load claims and the copy claim are withdrawn; a granted load loses its use (R85, R93), a granted
copy step becomes that of an aborted copy (R111), and no host operation is in flight, since the restart is itself a host
access. -/
def Obligations.ExchangeRestartKeepsConfiguration : Prop :=
  ∀ s : State, s.stretched = false → ∃ t, exec .exchangeRestart s = .next t
    ∧ OnlyChanges [.lines, .enableRefused, .stores, .readers, .bc, .arb, .txas, .host, .counters, .windows, .causes,
        .evq, .irq] s t
    ∧ (∀ n, t.running n = false
        ∧ t.lines.get n = (if (s.lines.get n).enabled then
            { s.lines.get n with receiver := .hunt, verifyCount := 0, earlyCount := 0, timerArmed := false,
                                 txCounter := 0, rxRef := none }
          else { s.lines.get n with txCounter := 0, rxRef := none })
        ∧ t.enableRefused.get n = false
        ∧ (t.stores.get n).frameCount = 0 ∧ (t.stores.get n).discarding = false
        ∧ (t.stores.get n).overrunRun = false
        ∧ (∀ i, ((t.stores.get n).buffers.get i).state = .free
            ∧ ((t.stores.get n).buffers.get i).number = none
            ∧ ((t.stores.get n).buffers.get i).damaged = false
            ∧ (∀ y, ((t.stores.get n).buffers.get i).holders.get y = false)
            ∧ ((t.stores.get n).buffers.get i).words = ((s.stores.get n).buffers.get i).words)
        ∧ t.readers.get n = State.reset.readers.get n ∧ t.txas.get n = State.reset.txas.get n)
    ∧ t.host = State.reset.host ∧ t.counters = State.reset.counters ∧ t.windows = State.reset.windows
    ∧ t.causes = State.reset.causes ∧ t.evq = State.reset.evq
    ∧ t.irq = { State.reset.irq with enable := s.irq.enable }
    ∧ t.arb.loadQueue = [] ∧ t.arb.copyClaim = none ∧ t.arb.hostClaim = none
    ∧ (∀ y program live, s.arb.grant = some (.load y program live) → t.arb.grant = some (.load y program false))
    ∧ (∀ i live, s.arb.grant = some (.copyStep i live) → t.arb.grant = some (.copyStep i false))
    ∧ (s.arb.grant = none → t.arb.grant = none) ∧ t.arb.grant.any Grant.isHost = false
    ∧ t.bc.result = .ok ∧ t.bc.pair = .stable ∧ t.bc.active = s.bc.active ∧ (∀ n, t.bc.adoptionSet.get n = false)
    ∧ t.bc.stagedValid = (s.bc.stagedValid && s.bc.pair != .copying)
    ∧ ∀ n, t.bc.current.get n =
        if s.bc.pair = .commitPending ∧ s.bc.adoptionSet.get n = true then s.bc.active else s.bc.current.get n

/-! ### Frame generators -/

/-- Writes to the period, the phase and the START codes of the generators (01 section 1.3): which writes are refused, that a
refused write keeps the stored value and sets the refused flag, that a taken one replaces it and clears the flag, that
START acts on a stopped generator only, and that nothing else changes. -/
def Obligations.GeneratorRegisterWrites : Prop :=
  (∀ (g : Fin 2) (v : Word) (s : State), s.stretched = false → ∃ t, exec (.fgPeriodWrite g v) s = .next t
      ∧ OnlyChanges [.gens] s t ∧ (∀ h, h ≠ g → t.gens.get h = s.gens.get h)
      ∧ (((s.gens.get g).running = true ∨ v.toNat < 64 ∨ v.toNat ≤ (s.gens.get g).phase.toNat
            ∨ ∃ n, (s.lines.get n).enabled = true ∧ (s.lines.get n).config.timing = .fg g
              ∧ v.toNat < (s.lines.get n).config.slotCount * 16 * (s.lines.get n).config.bitDivider) →
          t.gens.get g = { s.gens.get g with refused := true })
      ∧ (¬ ((s.gens.get g).running = true ∨ v.toNat < 64 ∨ v.toNat ≤ (s.gens.get g).phase.toNat
            ∨ ∃ n, (s.lines.get n).enabled = true ∧ (s.lines.get n).config.timing = .fg g
              ∧ v.toNat < (s.lines.get n).config.slotCount * 16 * (s.lines.get n).config.bitDivider) →
          t.gens.get g = { s.gens.get g with period := v, refused := false }))
    ∧ (∀ (g : Fin 2) (v : Word) (s : State), s.stretched = false → ∃ t, exec (.fgPhaseWrite g v) s = .next t
      ∧ OnlyChanges [.gens] s t ∧ (∀ h, h ≠ g → t.gens.get h = s.gens.get h)
      ∧ t.gens.get g = (if (s.gens.get g).running = true ∨ (s.gens.get g).period.toNat ≤ v.toNat then
            { s.gens.get g with refused := true }
          else { s.gens.get g with phase := v, refused := false }))
    ∧ ∀ (v : Word) (s : State), s.stretched = false → ∃ t, exec (.fgStart v) s = .next t ∧ OnlyChanges [.gens] s t
      ∧ ∀ g, t.gens.get g = if fgCode v g = 1 ∧ (s.gens.get g).running = false then
          { s.gens.get g with running := true, frameStarts := 0 } else s.gens.get g

/-- STOP given to a running generator stops it, and every enabled line it times goes to HUNT with its counts 0 and stops
running (01 section 1.3). A line that ran has its store emptied, buffer by buffer, and its line frame count kept (R50, R51),
holds no buffer and has every cursor NONE (R71), waits for no load and has lost the use of one that is granted (R85), has
adopted where an adoption was due (R101), has no fixed frame (R122) and a fresh damage window (R150). Its other fields, every
other line, the counters and the causes are kept, and with no adoption due no event is appended and bank control is unchanged.
The store of every other line loses those holders and nothing else (R40), every other line keeps its load claim and its frame,
and last words, slot programs and views are kept on every line (R114, R121). The stop of the last member of the adoption set
completes the commit with the COMMIT_DONE status and event (R101, R104), no other event is sent, and nothing else of the event
list and the interrupt changes. -/
def Obligations.GeneratorStopHaltsItsLines : Prop :=
  ∀ (v : Word) (s : State), s.stretched = false → ∃ t, exec (.fgStop v) s = .next t
    ∧ OnlyChanges [.lines, .gens, .stores, .readers, .bc, .arb, .txas, .windows, .evq, .irq] s t
    ∧ (∀ g, t.gens.get g = if fgCode v g = 2 then { s.gens.get g with running := false } else s.gens.get g)
    ∧ (∀ n, ((∃ g, fgCode v g = 2 ∧ (s.gens.get g).running = true ∧ (s.lines.get n).enabled = true
              ∧ (s.lines.get n).config.timing = .fg g) →
            t.running n = false
            ∧ t.lines.get n = { s.lines.get n with
                receiver := .hunt, verifyCount := 0, earlyCount := 0, timerArmed := false }
            ∧ (s.running n = true →
              (∀ x, ((t.readers.get n).get x).held = none ∧ ((t.readers.get n).get x).cursor = none)
              ∧ (∀ i, ((t.stores.get n).buffers.get i).state = .free
                  ∨ ((t.stores.get n).buffers.get i).state = .retired)
              ∧ (t.stores.get n).discarding = false
              ∧ (t.stores.get n).frameCount = (s.stores.get n).frameCount
              ∧ n ∉ t.arb.loadQueue ∧ (∀ p, t.arb.grant ≠ some (.load n p true))
              ∧ t.bc.adoptionSet.get n = false ∧ (t.txas.get n).fixed = none ∧ t.windows.get n = ⟨0, 0, false⟩))
        ∧ (¬ (∃ g, fgCode v g = 2 ∧ (s.gens.get g).running = true ∧ (s.lines.get n).enabled = true
              ∧ (s.lines.get n).config.timing = .fg g) →
            t.lines.get n = s.lines.get n ∧ t.readers.get n = s.readers.get n ∧ t.windows.get n = s.windows.get n))
    ∧ ((∀ n, s.bc.adoptionSet.get n = false) → t.bc = s.bc ∧ t.evq = s.evq ∧ t.irq = s.irq)
    ∧ (let stop : Line → Bool := fun n => s.running n && decide (∃ g, fgCode v g = 2 ∧ (s.gens.get g).running = true
        ∧ (s.lines.get n).config.timing = .fg g)
      LinesStopped stop s t
      ∧ ∀ n, t.txas.get n = (if stop n = true then { s.txas.get n with fixed := none } else s.txas.get n)
        ∧ (stop n = false → t.windows.get n = s.windows.get n))
    ∧ t.evq.records.length ≤ s.evq.records.length + 1

/-- A frame start of a running generator (01 section 1.3, 04 section 4.3): every line it times is LOCKED and running after it
and waits for its slot program, and no bit of its new frame has been sampled. Each has released what it held (R60, R40), been
tested for suspension (R125) and adopted where an adoption was due, the last one completing the commit (R100, R104), in every
order of sides. The other stores lose those holders and nothing else; every other line keeps its line interface, readers,
counters, damage window, fixed frame and load claim; last words, programs and views are kept on every line (R121). A physical
line that ran completes the frame of the bits sampled since the boundary before (R9, R44): the store numbers it, and the buffer
that was receiving it is READY with its words and the damaged flag of the verdict, where the numbers of the other READY buffers
are older (R38); that a bit missing counts as 0 is the model's choice (log 5). The host line has consumed its pending frame,
which takes a number, and a frame fixed before is captured: as fixed, or blank if its span has seen suspension (R127), and the
span of the next begins with the flag as it stands after the test. With that line not timed its block is kept. Where the list
has room after it, a physical line taken from HUNT has sent a SYNC event with the detail LOCKED and no event was lost; no other
line sends one, the host line never (R9). Causes gain only DEGRADED on timed physical lines and the GROUP that follows (R149,
R154). That the transmit frame counter is unchanged here is the model's reading (log 13), and so are that a line's fixed frame
has ended (log 12) and that a load it still waits for is superseded (log 8). A stopped generator has no frame start (log 3). -/
def Obligations.FrameStartIsABoundaryOfItsLines : Prop :=
  (∀ (g : Fin 2) (samples : Tab (List Bool) 8) (order : List Part) (turns : List Nat) (s : State),
    (s.gens.get g).running = true →
    ∃ t, exec (.fgFrameStart g samples ⟨order, turns⟩) s = .next t
      ∧ OnlyChanges [.lines, .gens, .stores, .readers, .bc, .arb, .txas, .host, .counters, .windows, .causes, .evq, .irq,
          .received] s t
      ∧ t.gens.get g = { s.gens.get g with frameStarts := (s.gens.get g).frameStarts + 1 }
      ∧ (∀ h, h ≠ g → t.gens.get h = s.gens.get h)
      ∧ (∀ n, s.timedBy g n = true →
          t.running n = true ∧ (t.lines.get n).config = (s.lines.get n).config
          ∧ (t.lines.get n).txCounter = (s.lines.get n).txCounter
          ∧ n ∈ t.arb.loadQueue
          ∧ (n ≠ hostLine → t.received.get n = [] ∧ (t.stores.get n).receiving = true))
      ∧ (∀ p : PhysLine, s.timedBy g p.line = true →
          (t.stores.get p.line).frameCount
            = (if (s.stores.get p.line).receiving then (s.stores.get p.line).frameCount + 1
              else (s.stores.get p.line).frameCount)
          ∧ (s.running p.line = true → ∀ i, (s.stores.get p.line).filling = some i →
              (s.stores.get p.line).NextNumberIsNewest →
              let frame := fullFrame (s.lines.get p.line).config.slotCount (s.received.get p.line ++ samples.get p)
              ((t.stores.get p.line).buffers.get i).state = .ready
              ∧ ((t.stores.get p.line).buffers.get i).number = some ((s.stores.get p.line).frameCount + 1)
              ∧ ((t.stores.get p.line).buffers.get i).damaged = (judge (s.lines.get p.line) frame false).damaged
              ∧ ((t.stores.get p.line).buffers.get i).slotCount = (s.lines.get p.line).config.slotCount
              ∧ ∀ k, k < (s.lines.get p.line).config.slotCount →
                  ((t.stores.get p.line).buffers.get i).words.getD k 0 = frame.getD k 0))
      ∧ (s.timedBy g hostLine = false → t.host = s.host)
      ∧ (s.timedBy g hostLine = true →
          t.host = { s.host with insertPending := none, underrunArmed := s.host.insertPending.isSome,
                                 captures := t.host.captures, overflowRun := t.host.overflowRun }
          ∧ (t.stores.get hostLine).frameCount
            = (if s.host.insertPending.isSome then (s.stores.get hostLine).frameCount + 1
              else (s.stores.get hostLine).frameCount)
          ∧ (t.txas.get hostLine).spanSuspended = (t.txas.get hostLine).suspended
          ∧ ((s.txas.get hostLine).fixed = none → t.host.captures = s.host.captures)
          ∧ ∀ f, (s.txas.get hostLine).fixed = some f →
            (8 ≤ s.host.captures.length → t.host.captures = s.host.captures)
            ∧ (s.host.captures.length < 8 → ∃ blank : Bool, t.host.captures = s.host.captures ++ [captureOf f blank]
              ∧ ((s.txas.get hostLine).spanSuspended = true → blank = true)
              ∧ (blank = true → (s.txas.get hostLine).spanSuspended = true ∨ t.isolating hostLine = true)))
      ∧ (∃ sent, t.evq.records = s.evq.records ++ sent
          ∧ (∀ r ∈ sent, r.kind = .sync → ∃ p : PhysLine, s.timedBy g p.line = true
              ∧ (s.lines.get p.line).receiver = .hunt ∧ r = ⟨.sync, p.line, 0, 1, 3, s.stampOf p.line⟩)
          ∧ (t.evq.records.length < 32 ∨ t.irq.evqLoss = false → ∀ p : PhysLine, s.timedBy g p.line = true →
              (s.lines.get p.line).receiver = .hunt →
              (⟨.sync, p.line, 0, 1, 3, s.stampOf p.line⟩ : EventRecord) ∈ sent))
      ∧ BoundariesOf (s.timedBy g) s t
      ∧ ∀ n, s.timedBy g n = false →
          t.lines.get n = s.lines.get n ∧ t.readers.get n = s.readers.get n ∧ t.counters.get n = s.counters.get n
          ∧ t.windows.get n = s.windows.get n ∧ t.received.get n = s.received.get n)
    ∧ ∀ (g : Fin 2) (samples : Tab (List Bool) 8) (order : List Part) (turns : List Nat) (s : State),
      (s.gens.get g).running = false → exec (.fgFrameStart g samples ⟨order, turns⟩) s = .next s

/-- Each side of each timed line is taken exactly once at a frame start, whatever order the command names (the model's
choice, log 5). -/
def Obligations.FrameStartTakesEachSideOnce : Prop :=
  ∀ (timed : Line → Bool) (order : List Part), (frameStartOrder timed order).Nodup
    ∧ ∀ p, p ∈ frameStartOrder timed order ↔ timed p.line = true

/-! ### Enabling, disabling and restarting lines -/

/-- A write to LINE_ENABLE enables each line whose bit is written 1 while it reads 0 and whose frame fits its generator's
period, and refuses each other such line; every other line is left as it is (01 section 1.4). -/
def Obligations.LineEnableTakesEachBit : Prop :=
  ∀ (v : Word) (s : State), s.stretched = false → ∃ t, exec (.lineEnable v) s = .next t
    ∧ OnlyChanges [.lines, .enableRefused, .txas] s t
    ∧ ∀ n,
      ((lineBit v n = true ∧ (s.lines.get n).enabled = false
          ∧ ∀ g, (s.lines.get n).config.timing = .fg g →
            (s.lines.get n).config.slotCount * 16 * (s.lines.get n).config.bitDivider ≤ (s.gens.get g).period.toNat) →
        t.lines.get n = { s.lines.get n with
            enabled := true, receiver := .hunt, verifyCount := 0, earlyCount := 0, timerArmed := false, txCounter := 0 }
        ∧ t.txas.get n = { s.txas.get n with lastWords := List.replicate (Config.lineWords n) 0 }
        ∧ t.enableRefused.get n = s.enableRefused.get n)
      ∧ (∀ g, lineBit v n = true ∧ (s.lines.get n).enabled = false ∧ (s.lines.get n).config.timing = .fg g
          ∧ (s.gens.get g).period.toNat
              < (s.lines.get n).config.slotCount * 16 * (s.lines.get n).config.bitDivider →
        t.lines.get n = s.lines.get n ∧ t.txas.get n = s.txas.get n ∧ t.enableRefused.get n = true)
      ∧ (lineBit v n = false ∨ (s.lines.get n).enabled = true →
        t.lines.get n = s.lines.get n ∧ t.txas.get n = s.txas.get n
        ∧ t.enableRefused.get n = s.enableRefused.get n)

/-- A write to LINE_ENABLE disables each line whose bit is written 0 while it reads 1 (01 section 1.7, 08 section 8.5): the
receiver is DISABLED with its counts 0, a running line holds nothing, has no frame in progress, waits for no load, has adopted
where an adoption was due (R101), and its store keeps only frames that are held (R50). Counters, causes and configuration are
kept, every other line is left with its load claim and its frame, its store losing those holders and nothing else (R40), and
with no adoption due no event is appended. Last words, slot programs and views are kept on every line (R114, R121). The stop of
the last member of the adoption set completes the commit with the COMMIT_DONE status and event (R101, R104), no other event is
sent, and nothing else of the event list and the interrupt changes. -/
def Obligations.LineDisableStopsItsLines : Prop :=
  ∀ (v : Word) (s : State), s.stretched = false → ∃ t, exec (.lineDisable v) s = .next t
    ∧ OnlyChanges [.lines, .stores, .readers, .bc, .arb, .txas, .host, .windows, .evq, .irq] s t
    ∧ (∀ n,
      (lineBit v n = false ∧ (s.lines.get n).enabled = true →
        t.lines.get n = { s.lines.get n with
            enabled := false, receiver := .disabled, verifyCount := 0, earlyCount := 0, timerArmed := false })
      ∧ (lineBit v n = true ∨ (s.lines.get n).enabled = false →
        t.lines.get n = s.lines.get n ∧ t.readers.get n = s.readers.get n ∧ t.windows.get n = s.windows.get n)
      ∧ (lineBit v n = false ∧ s.running n = true →
        (∀ x, ((t.readers.get n).get x).held = none ∧ ((t.readers.get n).get x).cursor = none)
        ∧ (∀ i, ((t.stores.get n).buffers.get i).state = .free ∨ ((t.stores.get n).buffers.get i).state = .retired)
        ∧ (t.stores.get n).discarding = false ∧ (t.stores.get n).frameCount = (s.stores.get n).frameCount
        ∧ n ∉ t.arb.loadQueue ∧ t.bc.adoptionSet.get n = false ∧ (t.txas.get n).fixed = none
        ∧ t.windows.get n = ⟨0, 0, false⟩))
    ∧ t.host = (if lineBit v hostLine = false ∧ (s.lines.get hostLine).enabled = true then
        { s.host with compose := [], overFlag := false, shortFlag := false, busyFlag := false, insertPending := none,
                      captures := [], readIndex := 0, overflowRun := false }
      else s.host)
    ∧ ((∀ n, s.bc.adoptionSet.get n = false) → t.bc = s.bc ∧ t.evq = s.evq ∧ t.irq = s.irq)
    ∧ LinesStopped (fun n => s.running n && !lineBit v n) s t
    ∧ (∀ n, (s.running n && !lineBit v n) = false → t.txas.get n = s.txas.get n ∧ t.windows.get n = s.windows.get n)
    ∧ (∀ n, (s.running n && !lineBit v n) = true → t.txas.get n = { s.txas.get n with fixed := none })
    ∧ t.evq.records.length ≤ s.evq.records.length + 1

/-- A write to LINE_RESTART restarts each enabled line whose bit is 1 (01 section 1.7, 08 section 8.5): the receiver is in
HUNT, the transmit frame counter, the receive reference, the damage window and the last-word memory start afresh, a running
line stops as at a disable. Enables, configuration, counters and causes are kept; the capture queue of the host line is kept;
every other line is left with its load claim, its frame and its last words, its store losing those holders and nothing else
(R40). An adoption due is made, and that of the last member of the adoption set completes the commit with the COMMIT_DONE
status and event (R101, R104); no other event is sent, and nothing else of the event list and the interrupt changes. -/
def Obligations.LineRestartRehuntsItsLines : Prop :=
  ∀ (v : Word) (s : State), s.stretched = false → ∃ t, exec (.lineRestart v) s = .next t
    ∧ OnlyChanges [.lines, .stores, .readers, .bc, .arb, .txas, .host, .windows, .evq, .irq] s t
    ∧ (∀ n,
      (lineBit v n = true ∧ (s.lines.get n).enabled = true →
        t.lines.get n = { s.lines.get n with
            receiver := .hunt, verifyCount := 0, earlyCount := 0, timerArmed := false, txCounter := 0, rxRef := none }
        ∧ t.windows.get n = ⟨0, 0, false⟩
        ∧ (t.txas.get n).lastWords = List.replicate (Config.lineWords n) 0
        ∧ (t.txas.get n).suspended = (s.txas.get n).suspended)
      ∧ (lineBit v n = false ∨ (s.lines.get n).enabled = false →
        t.lines.get n = s.lines.get n ∧ t.readers.get n = s.readers.get n ∧ t.windows.get n = s.windows.get n
        ∧ t.txas.get n = s.txas.get n)
      ∧ (lineBit v n = true ∧ s.running n = true →
        (∀ x, ((t.readers.get n).get x).held = none ∧ ((t.readers.get n).get x).cursor = none)
        ∧ (∀ i, ((t.stores.get n).buffers.get i).state = .free ∨ ((t.stores.get n).buffers.get i).state = .retired)
        ∧ (t.stores.get n).discarding = false ∧ (t.stores.get n).frameCount = (s.stores.get n).frameCount
        ∧ n ∉ t.arb.loadQueue ∧ t.bc.adoptionSet.get n = false ∧ (t.txas.get n).fixed = none))
    ∧ t.host = (if lineBit v hostLine = true ∧ (s.lines.get hostLine).enabled = true then
        { s.host with compose := [], overFlag := false, shortFlag := false, busyFlag := false, insertPending := none }
      else s.host)
    ∧ ((∀ n, s.bc.adoptionSet.get n = false) → t.bc = s.bc ∧ t.evq = s.evq ∧ t.irq = s.irq)
    ∧ LinesStopped (fun n => s.running n && lineBit v n) s t
    ∧ (∀ n, lineBit v n = true → (s.lines.get n).enabled = true →
        t.txas.get n = { s.txas.get n with
          lastWords := List.replicate (Config.lineWords n) 0
          fixed := if s.running n = true then none else (s.txas.get n).fixed })
    ∧ t.evq.records.length ≤ s.evq.records.length + 1

/-! ### Receiver synchronisation -/

/-- R13, whole: an arrival in HUNT, and what HUNT is not. -/
def Obligations.ArrivalInHuntGoesToVerify : Prop :=
  ∀ (p : PhysLine) (samples : List Bool) (txFirst : Bool) (turns : List Nat) (s : State),
    (s.lines.get p.line).receiver = .hunt →
    s.running p.line = false ∧ (∀ b, s.drivenBit p b = none)
    ∧ (∀ b, (bitClock p.line b s).stores = s.stores)
    ∧ ((s.lines.get p.line).config.timing = .external →
      ∃ t, exec (.syncArrival p samples ⟨txFirst, turns⟩) s = .next t ∧ OnlyChanges [.lines, .received] s t
        ∧ OnlyLine p.line s.lines t.lines ∧ OnlyLine p.line s.received t.received ∧ t.received.get p.line = []
        ∧ t.lines.get p.line = { s.lines.get p.line with receiver := .verify, verifyCount := 1, timerArmed := true })

/-- Arrivals in VERIFY and LOST of an externally timed line (01 section 1.5), `clocks` bit clocks after the one that armed the
frame timer: an on-time arrival raises the verify count or locks the line, an early or late one is the new reference; one past
the 16th bit clock after the expected position is the first after the expiry as the one on it is, in the model's reading (log
4); an arrival in LOST is taken with auto-rehunt on and ignored with it off. At the lock the line's first boundary does all
that a boundary does: what it held is released and nothing else of the other stores changes (R60, R40), its suspension is
tested (R125), an adoption due is made (R100), and its load claim is placed behind those of the other lines (R84). Last words,
programs and views are kept on every line, and the other lines keep their frames (R114, R121). That the line's fixed frame has
ended and that a load it still waits for is superseded are the model's readings (logs 12, 8). With room in the queue the SYNC
event is appended; records that other blocks send at that boundary stand on either side of it (log 6), and where none does it
stands alone. -/
def Obligations.ArrivalsInVerifyAndLost : Prop :=
  ∀ (p : PhysLine) (samples : List Bool) (txFirst : Bool) (turns : List Nat) (s : State),
    (s.lines.get p.line).config.timing = .external →
    let clocks := (s.received.get p.line).length + samples.length
    ((s.lines.get p.line).receiver = .verify → (s.lines.get p.line).timerArmed = true →
      (clocks = (s.lines.get p.line).config.slotCount * 16 → (s.lines.get p.line).verifyCount ≠ 2 →
        ∃ t, exec (.syncArrival p samples ⟨txFirst, turns⟩) s = .next t ∧ OnlyChanges [.lines, .received] s t
          ∧ OnlyLine p.line s.lines t.lines ∧ OnlyLine p.line s.received t.received ∧ t.received.get p.line = []
          ∧ t.lines.get p.line = { s.lines.get p.line with verifyCount := 2, timerArmed := true })
      ∧ (clocks = (s.lines.get p.line).config.slotCount * 16 → (s.lines.get p.line).verifyCount = 2 →
        ∃ t, exec (.syncArrival p samples ⟨txFirst, turns⟩) s = .next t
          ∧ OnlyChanges [.lines, .stores, .readers, .bc, .arb, .txas, .counters, .windows, .causes, .evq, .irq,
              .received] s t
          ∧ OnlyLine p.line s.lines t.lines ∧ OnlyLine p.line s.received t.received ∧ t.received.get p.line = []
          ∧ OnlyLine p.line s.counters t.counters ∧ OnlyLine p.line s.readers t.readers
          ∧ OnlyLine p.line s.windows t.windows ∧ BoundariesOf (· == p.line) s t ∧ (t.stores.get p.line).receiving = true
          ∧ (t.lines.get p.line).receiver = .locked ∧ (t.lines.get p.line).verifyCount = 0
          ∧ (t.lines.get p.line).earlyCount = 0 ∧ (t.lines.get p.line).timerArmed = true
          ∧ ((s.stores.get p.line).receiving = false → s.evq.records.length ≤ 29 →
              ∃ sent, t.evq.records = s.evq.records ++ sent
                ∧ (⟨.sync, p.line, 0, 1, 3, s.stampOf p.line⟩ : EventRecord) ∈ sent
                ∧ ((if txFirst then (s.stores.get p.line).release p.line else s.stores.get p.line).choose ≠ none →
                    s.bc.adoptionSet.get p.line = false → sent = [⟨.sync, p.line, 0, 1, 3, s.stampOf p.line⟩]))
          ∧ p.line ∈ t.arb.loadQueue)
      ∧ (clocks ≠ (s.lines.get p.line).config.slotCount * 16 →
        ∃ t, exec (.syncArrival p samples ⟨txFirst, turns⟩) s = .next t ∧ OnlyChanges [.lines, .received] s t
          ∧ OnlyLine p.line s.lines t.lines ∧ OnlyLine p.line s.received t.received ∧ t.received.get p.line = []
          ∧ (t.lines.get p.line).receiver = .verify ∧ (t.lines.get p.line).verifyCount = 1
          ∧ (t.lines.get p.line).timerArmed = true ∧ (t.lines.get p.line).config = (s.lines.get p.line).config
          ∧ (t.lines.get p.line).enabled = (s.lines.get p.line).enabled))
    ∧ ((s.lines.get p.line).receiver = .lost → (s.lines.get p.line).timerArmed = false →
      ((s.lines.get p.line).config.autoRehunt = true →
        ∃ t, exec (.syncArrival p samples ⟨txFirst, turns⟩) s = .next t ∧ OnlyChanges [.lines, .received] s t
          ∧ OnlyLine p.line s.lines t.lines ∧ OnlyLine p.line s.received t.received ∧ t.received.get p.line = []
          ∧ t.lines.get p.line = { s.lines.get p.line with receiver := .verify, verifyCount := 1, timerArmed := true })
      ∧ ((s.lines.get p.line).config.autoRehunt = false →
        exec (.syncArrival p samples ⟨txFirst, turns⟩) s = .next s))

/-- Arrivals in LOCKED that are frame boundaries (01 section 1.5), `bits` being the bits sampled since the one before: on time,
late (1 to 15 bit clocks after the expected position) and the first early one in a row. The line goes on running with its timer
armed on the arrival; the error count and the consecutive-early count follow the judgement; the store numbers the frame that a
buffer was receiving, and that buffer is READY with the words formed from the bits (a short frame's words past the last whole
slot are 0) and the damaged flag of the verdict, where the numbers of the other READY buffers are older than its own (R38); the
line has released what it held (R60), the other stores losing that holder and nothing else (R40), been tested for suspension
(R125) and adopted where an adoption was due, as the last member completing the commit (R100, R104), and it waits for its slot
program behind the claims of before (R84). Last words, programs and views are kept on every line, and the other lines keep
their frames and claims (R114, R121). Causes gain only the line's DEGRADED and the GROUP that follows (R149, R154). That the
transmit frame counter is unchanged here is the model's reading (log 13: it advances at LOAD_COMPLETE), and so are that the
line's fixed frame has ended (log 12) and that a load it still waits for is superseded (log 8). -/
def Obligations.ArrivalsInLockedAreBoundaries : Prop :=
  ∀ (p : PhysLine) (samples : List Bool) (txFirst : Bool) (turns : List Nat) (s : State),
    (s.lines.get p.line).config.timing = .external → (s.lines.get p.line).receiver = .locked →
    (s.lines.get p.line).timerArmed = true →
    let bits := s.received.get p.line ++ samples
    let short := decide (bits.length < (s.lines.get p.line).config.slotCount * 16)
    bits.length < (s.lines.get p.line).config.slotCount * 16 + 16 →
    (short = false ∨ (s.lines.get p.line).earlyCount = 0) →
    let frame := if short then shortFrame (s.lines.get p.line).config.slotCount bits
      else fullFrame (s.lines.get p.line).config.slotCount bits
    ∃ t, exec (.syncArrival p samples ⟨txFirst, turns⟩) s = .next t
      ∧ OnlyChanges [.lines, .stores, .readers, .bc, .arb, .txas, .counters, .windows, .causes, .evq, .irq, .received] s t
      ∧ OnlyLine p.line s.lines t.lines ∧ OnlyLine p.line s.counters t.counters
      ∧ OnlyLine p.line s.readers t.readers ∧ OnlyLine p.line s.windows t.windows
      ∧ OnlyLine p.line s.received t.received ∧ t.received.get p.line = []
      ∧ (t.lines.get p.line).receiver = .locked ∧ (t.lines.get p.line).enabled = (s.lines.get p.line).enabled
      ∧ (t.lines.get p.line).timerArmed = true ∧ (t.lines.get p.line).config = (s.lines.get p.line).config
      ∧ (t.lines.get p.line).txCounter = (s.lines.get p.line).txCounter
      ∧ (t.lines.get p.line).earlyCount = (if short then 1 else 0)
      ∧ t.counter p.line SYNC_ERRORS
          = (if bits.length = (s.lines.get p.line).config.slotCount * 16 then s.counter p.line SYNC_ERRORS
            else satInc (s.counter p.line SYNC_ERRORS))
      ∧ t.counter p.line SYNC_LOSSES = s.counter p.line SYNC_LOSSES
      ∧ (t.stores.get p.line).frameCount
          = (if (s.stores.get p.line).receiving then (s.stores.get p.line).frameCount + 1
            else (s.stores.get p.line).frameCount)
      ∧ (∀ i, (s.stores.get p.line).filling = some i → (s.stores.get p.line).NextNumberIsNewest →
          ((t.stores.get p.line).buffers.get i).state = .ready
          ∧ ((t.stores.get p.line).buffers.get i).number = some ((s.stores.get p.line).frameCount + 1)
          ∧ ((t.stores.get p.line).buffers.get i).damaged = (judge (s.lines.get p.line) frame short).damaged
          ∧ ((t.stores.get p.line).buffers.get i).slotCount = (s.lines.get p.line).config.slotCount
          ∧ ∀ k, k < (s.lines.get p.line).config.slotCount →
              ((t.stores.get p.line).buffers.get i).words.getD k 0 = frame.getD k 0)
      ∧ p.line ∈ t.arb.loadQueue
      ∧ (t.stores.get p.line).receiving = true ∧ BoundariesOf (· == p.line) s t

/-- The frame timer expires (01 section 1.5, 09 section 9.3). In VERIFY the receiver goes to HUNT and nothing else happens. In
LOCKED one sync error and one sync loss are counted, the receiver is in LOST with its counts 0, the line holds no buffer and
its store no READY or FILLING one, its load claim and its frame are gone and its window is fresh. The other stores lose that
holder and nothing else (R40), the other lines keep their claims and frames, and last words, programs and views are kept on
every line (R114, R121); the flag of a line whose isolating condition begins is set, and no other changes (R123). An adoption
due is made, and that of the last member of the adoption set completes the commit (R101, R104). It gains the cause LOST, and
under ISOLATE_GROUP, where it did not hold LOST before, every other line of its group gains GROUP; no other cause changes. That
a LOST held before gives no GROUP again is the model's reading (log 20). With room in the queue, no adoption due and LOST not
held before, the SYNC event, the FAULT event and the FAULT events of the lines that gain GROUP, in increasing order of line
number, stand behind the records of before. With the timer disarmed nothing happens (log 3). A second early arrival in a row in
LOCKED does the same as that expiry. An arrival in LOCKED on the 16th bit clock after the expected position does the same and
is then the first after the expiry (R12, R19): with auto-rehunt on the receiver is in VERIFY with verify count 1, the timer
armed and no bit sampled, with it off the arrival is ignored. That one past the 16th does so too is the model's reading (log
4). -/
def Obligations.LossOfSync : Prop :=
  ∀ (p : PhysLine) (samples : List Bool) (txFirst : Bool) (turns : List Nat) (s : State),
    (s.lines.get p.line).config.timing = .external →
    ((s.lines.get p.line).timerArmed = true → (s.lines.get p.line).receiver = .verify →
      ∃ t, exec (.timerExpiry p ⟨samples, txFirst, turns⟩) s = .next t ∧ OnlyChanges [.lines, .received] s t
        ∧ OnlyLine p.line s.lines t.lines ∧ OnlyLine p.line s.received t.received
        ∧ t.lines.get p.line = { s.lines.get p.line with
            receiver := .hunt, verifyCount := 0, earlyCount := 0, timerArmed := false })
    ∧ ((s.lines.get p.line).timerArmed = true → (s.lines.get p.line).receiver = .locked →
      let spreads := s.policyOf p.line == .isolateGroup && !(s.causes.get p.line).lost
      ∃ t, exec (.timerExpiry p ⟨samples, txFirst, turns⟩) s = .next t
        ∧ OnlyChanges [.lines, .stores, .readers, .bc, .arb, .txas, .counters, .windows, .causes, .evq, .irq, .received]
            s t
        ∧ OnlyLine p.line s.lines t.lines ∧ OnlyLine p.line s.counters t.counters
        ∧ OnlyLine p.line s.readers t.readers ∧ OnlyLine p.line s.windows t.windows
        ∧ OnlyLine p.line s.received t.received
        ∧ t.lines.get p.line = { s.lines.get p.line with
            receiver := .lost, verifyCount := 0, earlyCount := 0, timerArmed := false }
        ∧ (∀ k, t.counter p.line k = if k = SYNC_ERRORS ∨ k = SYNC_LOSSES then satInc (s.counter p.line k)
            else s.counter p.line k)
        ∧ t.causes.get p.line = { s.causes.get p.line with lost := true }
        ∧ (∀ m, m ≠ p.line → t.causes.get m
            = if spreads = true ∧ s.groupOf m = s.groupOf p.line then { s.causes.get m with group := true }
              else s.causes.get m)
        ∧ (∀ x, ((t.readers.get p.line).get x).held = none ∧ ((t.readers.get p.line).get x).cursor = none)
        ∧ (∀ i, ((t.stores.get p.line).buffers.get i).state = .free
            ∨ ((t.stores.get p.line).buffers.get i).state = .retired)
        ∧ (t.stores.get p.line).frameCount = (s.stores.get p.line).frameCount
        ∧ p.line ∉ t.arb.loadQueue ∧ t.windows.get p.line = ⟨0, 0, false⟩ ∧ LinesStopped (· == p.line) s t
        ∧ FramesEnded (· == p.line) s t ∧ SuspensionTested (fun _ => false) s t
        ∧ (s.evq.records.length ≤ 22 → s.bc.adoptionSet.get p.line = false → (s.causes.get p.line).lost = false →
            t.evq.records = s.evq.records
              ++ [⟨.sync, p.line, 0, 1, 4, s.stampOf p.line⟩, ⟨.fault, p.line, 0, 1, 1, s.stampOf p.line⟩]
              ++ (if s.policyOf p.line = .isolateGroup then groupFaults s (s.otherMember p.line) else [])))
    ∧ ((s.lines.get p.line).timerArmed = false → exec (.timerExpiry p ⟨samples, txFirst, turns⟩) s = .next s)
    ∧ ((s.lines.get p.line).timerArmed = true → (s.lines.get p.line).receiver = .locked →
        (s.received.get p.line).length + samples.length < (s.lines.get p.line).config.slotCount * 16 →
        (s.lines.get p.line).earlyCount ≠ 0 →
        exec (.syncArrival p samples ⟨txFirst, turns⟩) s = exec (.timerExpiry p ⟨samples, txFirst, turns⟩) s)
    ∧ ((s.lines.get p.line).timerArmed = true → (s.lines.get p.line).receiver = .locked →
        (s.lines.get p.line).config.slotCount * 16 + 16 ≤ (s.received.get p.line).length + samples.length →
        ∃ t, exec (.timerExpiry p ⟨samples, txFirst, turns⟩) s = .next t
          ∧ exec (.syncArrival p samples ⟨txFirst, turns⟩) s = .next
            (if (s.lines.get p.line).config.autoRehunt then
              (t.withLines (t.lines.put p.line
                { t.lines.get p.line with receiver := .verify, verifyCount := 1, timerArmed := true })).withReceived
                (t.received.put p.line [])
            else t))

/-! ### The frame check -/

/-- A frame completes at a boundary: the verdict of Table 2-1 with its Damaged column, the counts that the completion makes (02
section 2.4), the buffer that takes the frame with the verdict's damaged flag (where the numbers of the other READY buffers are
older, R38), the damage window that counts it, and the cause DEGRADED when the window reaches a threshold other than 0 for the
first time (09 section 9.2). A line that gains DEGRADED gives GROUP to every other line of its group under ISOLATE_GROUP (R152,
R154); no other cause changes. That a DEGRADED held before gives no GROUP again is the model's reading (log 20). With room in
the queue the FAULT events follow, after an OVERRUN event of the acquisition if there is one; the queue may take the two the
other way round (log 6). -/
def Obligations.CompletedFrameIsJudged : Prop :=
  ∀ (p : PhysLine) (frame : List Word) (short : Bool) (s : State), (s.stores.get p.line).receiving = true →
    let l := s.lines.get p.line
    let checked := l.config.checkEnable && !short
    let bad := checked && frameSum (frame.drop 1) != checkSumField (frame.headD 0)
    let gap := checked && l.rxRef.isSome && l.rxRef != some (checkCounter (frame.headD 0) - 1)
    let w := s.windows.get p.line
    let reached := decide (l.config.damageThreshold ≠ 0
      ∧ l.config.damageThreshold ≤ w.damaged + (bad || short).toNat) && !w.reported
    let gains := reached && !(s.causes.get p.line).degraded
    let spreads := gains && s.policyOf p.line == .isolateGroup
    let t := receiveBoundary p.line frame short s
    (judge l frame short).damaged = (bad || short)
    ∧ t.counter p.line CHECK_ERRORS
        = (if bad then satInc (s.counter p.line CHECK_ERRORS) else s.counter p.line CHECK_ERRORS)
    ∧ t.counter p.line SEQ_GAPS = (if gap then satInc (s.counter p.line SEQ_GAPS) else s.counter p.line SEQ_GAPS)
    ∧ t.counter p.line DAMAGED_FRAMES
        = (if bad || short then satInc (s.counter p.line DAMAGED_FRAMES) else s.counter p.line DAMAGED_FRAMES)
    ∧ t.lines.get p.line = { l with rxRef := if checked then some (checkCounter (frame.headD 0)) else l.rxRef }
    ∧ (t.stores.get p.line).frameCount = (s.stores.get p.line).frameCount + 1
    ∧ (∀ i, (s.stores.get p.line).filling = some i → (s.stores.get p.line).NextNumberIsNewest →
        (t.stores.get p.line).buffers.get i
          = ((s.stores.get p.line).buffers.get i).take ((s.stores.get p.line).frameCount + 1) (bad || short) frame)
    ∧ t.windows.get p.line = (if w.frames + 1 = 256 then ⟨0, 0, false⟩
        else ⟨w.frames + 1, w.damaged + (bad || short).toNat, w.reported || reached⟩)
    ∧ t.causes.get p.line
        = { s.causes.get p.line with degraded := (s.causes.get p.line).degraded || reached }
    ∧ (∀ m, m ≠ p.line → t.causes.get m
        = if spreads = true ∧ s.groupOf m = s.groupOf p.line then { s.causes.get m with group := true }
          else s.causes.get m)
    ∧ (s.evq.records.length ≤ 22 → ∃ overruns, overruns.length ≤ 1 ∧ (∀ r ∈ overruns, r.kind = .overrun)
        ∧ t.evq.records = s.evq.records ++ overruns
          ++ (if gains then [⟨.fault, p.line, 0, 1, 2, t.stampOf p.line⟩] else [])
          ++ (if spreads then groupFaults s (s.otherMember p.line) else []))

/-- A frame that a checked line fixes, with 0 received in its undriven slots, is found undamaged by a checked line, and it is a
sequence gap exactly when its counter does not follow the receive reference (02 sections 2.1 to 2.3). -/
def Obligations.CheckWordIsAcceptedByAReceiver : Prop :=
  ∀ (counter : BitVec 4) (slot0 : Option Word) (slots : FixedFrame) (l : LineUnit), l.config.checkEnable = true →
    judge l ((withCheck true counter (slot0 :: slots)).map fun w => w.getD 0) false
      = ⟨false, false, l.rxRef.isSome && l.rxRef != some (counter - 1), some counter⟩

/-! ### Receive frame stores -/

/-- What a frame holds (R3, R42): slot `k` is the word of its sixteen bits, most significant first, and in a short frame 0
where they have not all been received; that a bit of a full frame that was not received counts as 0 is the model's choice (log
5); and a bit clock of a running line that completes slot `k` writes that word to the FILLING buffer and to no other, where one
that completes none writes nothing. The completion step and emptying (03 sections 3.2 and 3.4): a FILLING buffer takes the
frame, the verdict and the next number and no other buffer changes; a discarded frame takes a number only; emptying acts on
each buffer by the table of 03 section 3.4 and keeps the count. -/
def Obligations.CompletionAndEmptying : Prop :=
  (∀ (slots : Nat) (bits : List Bool), (fullFrame slots bits).length = slots ∧ (shortFrame slots bits).length = slots
    ∧ ∀ k, k < slots →
      (∀ j, j < 16 → ((fullFrame slots bits).getD k 0).getLsbD (15 - j) = bits.getD (16 * k + j) false)
      ∧ (shortFrame slots bits).getD k 0
          = if 16 * (k + 1) ≤ bits.length then (fullFrame slots bits).getD k 0 else 0)
  ∧ (∀ (n : Line) (b : Bool) (s : State), s.running n = true →
      let bits := s.received.get n ++ [b]
      let t := bitClock n b s
      OnlyChanges [.stores, .received] s t ∧ OnlyLine n s.stores t.stores ∧ t.received = s.received.put n bits
      ∧ (∀ k i, bits.length = 16 * (k + 1) → k < (s.lines.get n).config.slotCount → (s.stores.get n).filling = some i →
          (t.stores.get n).buffers.get i = { (s.stores.get n).buffers.get i with
            words := (((s.stores.get n).buffers.get i).words).set k
              ((fullFrame (s.lines.get n).config.slotCount bits).getD k 0) }
          ∧ ∀ j, j ≠ i → (t.stores.get n).buffers.get j = (s.stores.get n).buffers.get j)
      ∧ ((s.stores.get n).filling = none ∨ bits.length % 16 ≠ 0
            ∨ 16 * (s.lines.get n).config.slotCount < bits.length → t.stores = s.stores))
  ∧ (∀ (st : Store) (damaged : Bool) (frame : List Word),
    (∀ i, st.filling = some i →
      (st.complete damaged frame).frameCount = st.frameCount + 1
      ∧ ((st.complete damaged frame).buffers.get i).state = .ready
      ∧ ((st.complete damaged frame).buffers.get i).number = some (st.frameCount + 1)
      ∧ ((st.complete damaged frame).buffers.get i).damaged = damaged
      ∧ ((st.complete damaged frame).buffers.get i).slotCount = frame.length
      ∧ (∀ k, k < frame.length →
          ((st.complete damaged frame).buffers.get i).words.getD k 0 = frame.getD k 0)
      ∧ (∀ y, ((st.complete damaged frame).buffers.get i).holders.get y = false)
      ∧ ∀ j, j ≠ i → (st.complete damaged frame).buffers.get j = st.buffers.get j)
    ∧ (st.filling = none → st.discarding = true →
      (st.complete damaged frame).frameCount = st.frameCount + 1 ∧ (st.complete damaged frame).discarding = false
      ∧ (st.complete damaged frame).buffers = st.buffers)
    ∧ (st.filling = none → st.discarding = false → st.complete damaged frame = st))
  ∧ ∀ (st : Store) (i : Fin 4), st.emptied.frameCount = st.frameCount ∧ st.emptied.discarding = false
    ∧ st.emptied.overrunRun = false
    ∧ ((st.buffers.get i).state = .free → st.emptied.buffers.get i = st.buffers.get i)
    ∧ ((st.buffers.get i).state = .filling → (st.emptied.buffers.get i).state = .free
        ∧ (st.emptied.buffers.get i).number = none)
    ∧ ((st.buffers.get i).state = .ready → (∀ y, (st.buffers.get i).holders.get y = false) →
        (st.emptied.buffers.get i).state = .free ∧ (st.emptied.buffers.get i).number = none
        ∧ (st.emptied.buffers.get i).damaged = false)
    ∧ (∀ y, (st.buffers.get i).state = .ready → (st.buffers.get i).holders.get y = true →
        st.emptied.buffers.get i = { st.buffers.get i with state := .retired })
    ∧ ((st.buffers.get i).state = .retired → st.emptied.buffers.get i = st.buffers.get i)

/-- The acquisition step of a physical line (03 section 3.2): the buffer chosen is the FREE one of lowest index, else a READY
one that nobody holds, that is not the newest ready frame and that is older than every other such one; it becomes FILLING
and no other buffer changes. With no FREE buffer and no such READY one the frame is discarded and counted, and the first
discard of a run sends an OVERRUN event. Where the numbers of READY buffers are distinct and lie close below the line frame
count (R38), no buffer is chosen only when none is FREE and none but the newest ready frame is READY and unheld. -/
def Obligations.AcquisitionProtectsHeldAndNewest : Prop :=
  (∀ (st : Store) (i : Fin 4), st.choose = some i →
    ((st.buffers.get i).state = .free ∧ ∀ j, j < i → (st.buffers.get j).state ≠ .free)
    ∨ ((st.buffers.get i).state = .ready ∧ (∀ j, (st.buffers.get j).state ≠ .free)
      ∧ (∀ y, (st.buffers.get i).holders.get y = false)
      ∧ ∃ f, (st.buffers.get i).number = some f ∧ st.newest ≠ some (i, f)
        ∧ ∀ j g, j ≠ i → (st.buffers.get j).state = .ready → (st.buffers.get j).number = some g →
          (∀ y, (st.buffers.get j).holders.get y = false) → st.newest ≠ some (j, g) → newer g f = true))
  ∧ (∀ st : Store, st.NumbersCompare → st.choose = none → ∀ i,
      (st.buffers.get i).state ≠ .free
      ∧ ∀ f, (st.buffers.get i).state = .ready → (st.buffers.get i).number = some f →
          (∀ y, (st.buffers.get i).holders.get y = false) → st.newest = some (i, f))
  ∧ (∀ (p : PhysLine) (s : State) (i : Fin 4), (s.stores.get p.line).choose = some i →
    OnlyChanges [.stores] s (acquire p.line s) ∧ OnlyLine p.line s.stores (acquire p.line s).stores
    ∧ (((acquire p.line s).stores.get p.line).buffers.get i).state = .filling
    ∧ ((acquire p.line s).stores.get p.line).overrunRun = false
    ∧ ∀ j, j ≠ i → ((acquire p.line s).stores.get p.line).buffers.get j = (s.stores.get p.line).buffers.get j)
  ∧ ∀ (p : PhysLine) (s : State), (s.stores.get p.line).choose = none →
    (∀ i, ((s.stores.get p.line).buffers.get i).state ≠ .free)
    ∧ OnlyChanges [.stores, .counters, .evq, .irq] s (acquire p.line s)
    ∧ OnlyLine p.line s.stores (acquire p.line s).stores ∧ OnlyLine p.line s.counters (acquire p.line s).counters
    ∧ (acquire p.line s).stores.get p.line = { s.stores.get p.line with discarding := true, overrunRun := true }
    ∧ (∀ k, (acquire p.line s).counter p.line k
        = if k = OVERRUNS then satInc (s.counter p.line k) else s.counter p.line k)
    ∧ ((s.stores.get p.line).overrunRun = true → (acquire p.line s).evq = s.evq)
    ∧ ((s.stores.get p.line).overrunRun = false → s.evq.records.length < 32 →
        (acquire p.line s).evq.records = s.evq.records ++ [⟨.overrun, p.line, 0, 1, 0, s.stampOf p.line⟩])

/-! ### Readers, slips and transmit assembly -/

/-- The completion of a granted load (04 sections 4.2 to 4.4, 07 section 7.1). A live load hands its program over: a reader
outside the source set, or with its source contained, not running or without a ready frame, has cursor NONE and holds
nothing; any other takes the newest ready frame, and its line joins the holders of that buffer. The containment views
are those of the selection (R113). The fixed frame is that of the program under the new stores and views and the last words
of before, with the check word of the transmit frame counter on a checked line (R114, R119), and each driven slot writes its
word into the last-word memory (R120). The counter of a physical line advances here: the model's reading (log 13). A load
whose line has stopped since is discarded. With no load granted nothing happens (log 3). -/
def Obligations.LoadCompletionSelectsAndFixes : Prop :=
  (∀ (y : Line) (program : List MapEntry) (s : State), s.arb.grant = some (.load y program true) →
    ∃ t, exec .loadComplete s = .next t
      ∧ OnlyChanges [.lines, .stores, .readers, .arb, .txas, .counters, .evq, .irq] s t
      ∧ OnlyLine y s.lines t.lines ∧ OnlyLine y s.readers t.readers ∧ OnlyLine y s.txas t.txas
      ∧ OnlyLine y s.counters t.counters
      ∧ t.arb = { s.arb with grant := none }
      ∧ (∀ x, (inSourceSet (s.lines.get y).config.checkEnable program x = false ∨ s.containedSource x = true
            ∨ s.running x = false ∨ (s.stores.get x).newest = none) →
          (t.readers.get y).get x = ⟨none, none⟩ ∧ t.stores.get x = s.stores.get x
          ∧ (t.txas.get y).views.get x
              = (if inSourceSet (s.lines.get y).config.checkEnable program x = false then none
                else if s.containedSource x = true then some .contained else some .absent))
      ∧ (∀ x b n, inSourceSet (s.lines.get y).config.checkEnable program x = true → s.containedSource x = false →
          s.running x = true → (s.stores.get x).newest = some (b, n) →
          (t.readers.get y).get x = ⟨some n, some b⟩
          ∧ (t.txas.get y).views.get x = some (.held b ((s.stores.get x).buffers.get b).slotCount
              ((s.stores.get x).buffers.get b).damaged)
          ∧ ((t.stores.get x).buffers.get b)
              = { (s.stores.get x).buffers.get b with holders := ((s.stores.get x).buffers.get b).holders.insert y }
          ∧ (∀ j, j ≠ b → (t.stores.get x).buffers.get j = (s.stores.get x).buffers.get j)
          ∧ (t.stores.get x).frameCount = (s.stores.get x).frameCount)
      ∧ (t.txas.get y).program = some program
      ∧ (let frame := withCheck (s.lines.get y).config.checkEnable (s.lines.get y).txCounter
            (fixSlots t.stores (t.txas.get y).views program (s.txas.get y).lastWords);
          (t.txas.get y).fixed = some frame ∧ frame.length = program.length
          ∧ (t.txas.get y).lastWords = updateLast frame (s.txas.get y).lastWords)
      ∧ (t.txas.get y).suspended = (s.txas.get y).suspended
      ∧ (t.lines.get y).txCounter
          = (if y = hostLine then (s.lines.get y).txCounter else (s.lines.get y).txCounter + 1))
  ∧ (∀ (y : Line) (program : List MapEntry) (s : State), s.arb.grant = some (.load y program false) →
      exec .loadComplete s = .next (s.withArb { s.arb with grant := none }))
  ∧ ∀ s : State, (∀ y program live, s.arb.grant ≠ some (.load y program live)) → exec .loadComplete s = .next s

/-- Table 4-1, and the counting and reporting of slips (04 section 4.5): the selections of one load raise the two slip counters
of the output line by the numbers of repeat and drop slips, held at 65535, and no other counter; and each slip sends its
event, in increasing order of input line: SLIP_REPEAT, or SLIP_DROP with the number of frames skipped (R65, R66). How an
event reaches the queue is said in `EventsAreAppendedMergedOrLost`. -/
def Obligations.SlipsAreClassifiedAndCounted : Prop :=
  (∀ n : BitVec 32, classify none n = .none)
  ∧ (∀ c n : BitVec 32, classify (some c) n =
      if n - c = 0 then .repeated
      else if n - c = 1 ∨ 2 ^ 31 ≤ (n - c).toNat then .none
      else .dropped ((n - c).toNat - 1))
  ∧ ∀ (y : Line) (program : List MapEntry) (s : State),
      let slip : Line → Slip := fun x =>
        (choiceOf s (s.lines.get y).config.checkEnable program x).slip ((s.readers.get y).get x).cursor
      let t := selectSources y program s
      (t.counter y REPEAT_SLIPS).toNat
          = min 65535 ((s.counter y REPEAT_SLIPS).toNat + (allLines.filter fun x => slip x = .repeated).length)
      ∧ (t.counter y DROP_SLIPS).toNat
          = min 65535 ((s.counter y DROP_SLIPS).toNat
              + (allLines.filter fun x => slip x ≠ .none ∧ slip x ≠ .repeated).length)
      ∧ (∀ k, k ≠ REPEAT_SLIPS → k ≠ DROP_SLIPS → t.counter y k = s.counter y k)
      ∧ OnlyLine y s.counters t.counters
      ∧ (let sent := allLines.foldl (fun u x => match slip x with
            | .none => u
            | .repeated => sendSlip .slipRepeat y x 0 u
            | .dropped skipped => sendSlip .slipDrop y x skipped u) s;
          t.evq = sent.evq ∧ t.irq = sent.irq)

/-- Table 7-1 for one slot, every slot of a frame fixed from its own entry and its own last word, slot 0 of a checked line with
the check word of the slots behind it, and the last-word memory after a fixing (07 sections 7.2 and 7.3, R119). -/
def Obligations.SlotIsFixedByItsEntry : Prop :=
  (∀ (stores : Tab Store 9) (views : Tab (Option View) 9) (e : MapEntry) (last : Word),
    (e.kind = .idle → fixSlot stores views e last = none)
    ∧ (e.kind = .constant → fixSlot stores views e last = some e.value)
    ∧ (e.kind = .route → views.get e.sourceLine = some .contained →
        fixSlot stores views e last = some (if e.policy = .fill then e.value else 0))
    ∧ (e.kind = .route → views.get e.sourceLine = some .absent →
        fixSlot stores views e last = some (if e.policy = .fill then e.value else last))
    ∧ (∀ b k damaged, e.kind = .route → views.get e.sourceLine = some (.held b k damaged) →
        (k ≤ e.sourceSlot.val ∨ damaged = true →
          fixSlot stores views e last = some (if e.policy = .fill then e.value else last))
        ∧ (e.sourceSlot.val < k → damaged = false →
          fixSlot stores views e last
            = some ((((stores.get e.sourceLine).buffers.get b).words).getD e.sourceSlot.val 0))))
  ∧ (∀ (stores : Tab Store 9) (views : Tab (Option View) 9) (program : List MapEntry) (ls : List Word),
    (fixSlots stores views program ls).length = program.length
    ∧ ∀ i, i < program.length → (fixSlots stores views program ls).getD i none
        = fixSlot stores views (program.getD i .zero) (ls.getD i 0))
  ∧ (∀ (counter : BitVec 4) (slot0 : Option Word) (slots : FixedFrame),
    withCheck false counter (slot0 :: slots) = slot0 :: slots
    ∧ withCheck true counter (slot0 :: slots)
        = some (BitVec.ofNat 16 (counter.toNat * 4096
            + (slots.foldl (fun sum w => sum + (w.getD 0).toNat) 0) % 4096)) :: slots)
  ∧ ∀ (f : FixedFrame) (ls : List Word), (updateLast f ls).length = ls.length
    ∧ ∀ i, i < ls.length → (updateLast f ls).getD i 0 = ((f.getD i none).getD (ls.getD i 0))

/-- The entry of slot 0 of a checked line is used to form no word and selects no source (02 section 2.2): two slot programs
that differ in it alone give the same fixed frame, the same readers, stores, counters and events. -/
def Obligations.SlotZeroEntryOfACheckedLineIsIgnored : Prop :=
  ∀ (y : Line) (e e' : MapEntry) (rest : List MapEntry) (s : State), (s.lines.get y).config.checkEnable = true →
    let t := fixFrame y (selectSources y (e :: rest) s)
    let t' := fixFrame y (selectSources y (e' :: rest) s)
    (t.txas.get y).fixed = (t'.txas.get y).fixed ∧ (t.txas.get y).lastWords = (t'.txas.get y).lastWords
    ∧ OnlyChanges [.txas] t t'

/-- The pins of a physical line (R3, R4, R113, R122, R123). A line whose suspension flag is set drives no bit, with LTXEn
inactive and, while the line is enabled, LTXDn low, whether it runs or not (that R123 gives this level to an enabled line that
does not run is the model's reading, log 15). The flag of a disabled line has no effect on its pins (R113). A running line
whose flag is clear sends its fixed frame: at bit clock 16 k + j, j below 16, bit 15 - j of the word of slot k with LTXEn
active, and in an undriven slot, past the last slot and without a fixed frame LTXEn is inactive and LTXDn low. A line that does
not run keeps LTXEn inactive. The bit clock and frame sync of an internally timed line (R3), `t` REFCLK periods after a frame
start of its generator: bit clock t / bit divider for the slot count × 16 bit clocks of a frame, LFSn active in the first, both
inactive in the gap behind them, and throughout while the line does not run or its generator is stopped. Frame start k falls
phase + k × period REFCLK periods after the START (R6); where the frame fits the period (R10), no bit clock of a frame reaches
the next frame start. -/
def Obligations.SuspendedLineDrivesNothing : Prop :=
  ∀ (n : PhysLine) (s : State),
    ((s.txas.get n.line).suspended = true →
      ∀ b, s.drivenBit n b = none ∧ s.ltxe n b = false
        ∧ ((s.lines.get n.line).enabled = true → s.ltxd n b = false))
    ∧ ((s.lines.get n.line).enabled = false → ∀ flag b,
      let t := s.withTxas (s.txas.put n.line { s.txas.get n.line with suspended := flag })
      t.drivenBit n b = s.drivenBit n b ∧ t.ltxe n b = s.ltxe n b ∧ t.ltxd n b = s.ltxd n b)
    ∧ ((s.txas.get n.line).suspended = false → s.running n.line = true →
      ∀ k j, j < 16 →
        (∀ f w, (s.txas.get n.line).fixed = some f → f.getD k none = some w →
          s.drivenBit n (16 * k + j) = some (w.getLsbD (15 - j)) ∧ s.ltxe n (16 * k + j) = true
          ∧ s.ltxd n (16 * k + j) = w.getLsbD (15 - j))
        ∧ ((s.txas.get n.line).fixed = none ∨ (∃ f, (s.txas.get n.line).fixed = some f ∧ f.getD k none = none) →
          s.drivenBit n (16 * k + j) = none ∧ s.ltxe n (16 * k + j) = false ∧ s.ltxd n (16 * k + j) = false))
    ∧ (s.running n.line = false → ∀ b, s.drivenBit n b = none ∧ s.ltxe n b = false)
    ∧ ∀ g, (s.lines.get n.line).config.timing = .fg g →
      let c := (s.lines.get n.line).config
      let gen := s.gens.get g
      (s.running n.line = true → gen.running = true → ∀ t,
        (t < c.slotCount * 16 * c.bitDivider →
          s.bitClockAt n t = some (t / c.bitDivider) ∧ (s.lfs n t = true ↔ t < c.bitDivider))
        ∧ (c.slotCount * 16 * c.bitDivider ≤ t → s.bitClockAt n t = none ∧ s.lfs n t = false))
      ∧ (s.running n.line = false ∨ gen.running = false → ∀ t, s.bitClockAt n t = none ∧ s.lfs n t = false)
      ∧ ∀ k, gen.frameStartTime k = gen.phase.toNat + k * gen.period.toNat
        ∧ (c.slotCount * 16 * c.bitDivider ≤ gen.period.toNat → ∀ t,
            gen.frameStartTime (k + 1) ≤ gen.frameStartTime k + t → s.bitClockAt n t = none)

/-! ### Table memory and bank control -/

/-- The arbiter grants the free port to the oldest load claim, else to the host claim, else to the copy claim (05 section
5.5): a load takes the entries of its line's current bank below the slot count, a READ the entry at the cursor of the bank
its table names. A held port, or no claim, grants nothing (log 3). -/
def Obligations.ArbiterGrantsInOrder : Prop :=
  ∀ s : State,
    (∀ y rest, s.arb.grant = none → s.arb.loadQueue = y :: rest →
      ∃ program, exec .arbiterGrant s
          = .next (s.withArb { s.arb with loadQueue := rest, grant := some (.load y program true) })
        ∧ program.length = (s.lines.get y).config.slotCount
        ∧ ∀ i, i < program.length →
            program.getD i .zero = Bank.read (s.bank (s.bc.current.get y)) (y.val * 64 + i))
    ∧ (∀ op, s.arb.grant = none → s.arb.loadQueue = [] → s.arb.hostClaim = some op →
      exec .arbiterGrant s = .next ((s.withArb { s.arb with
          hostClaim := none
          grant := some (match op with
            | .write e => .hostWrite e
            | .read => .hostRead (Bank.read
                (s.bank (if s.tp.tableId = 0 then s.bc.active.other else s.bc.active)) s.tp.index.toNat)) }).withTp
          { s.tp with timer := none }))
    ∧ (∀ i, s.arb.grant = none → s.arb.loadQueue = [] → s.arb.hostClaim = none → s.arb.copyClaim = some i →
      exec .arbiterGrant s = .next (s.withArb { s.arb with copyClaim := none, grant := some (.copyStep i true) }))
    ∧ (s.arb.grant ≠ none
        ∨ (s.arb.loadQueue = [] ∧ s.arb.hostClaim = none ∧ s.arb.copyClaim = none) → exec .arbiterGrant s = .next s)

/-- A granted host operation completes with OK (05 section 5.3, 11 section 11.3), with no access waiting: a READ copies its
entry into data words 0 and 1 and changes no entry of either bank; a WRITE replaces the entry at the cursor in the staged
bank, and every other entry of both banks reads as before. The cursor advances under AUTO_ADVANCE and wraps at the last
entry. With no such operation granted nothing happens (log 3). -/
def Obligations.MapOperationsComplete : Prop :=
  ∀ s : State,
    (∀ e, s.arb.grant = some (.hostRead e) → s.bus.held = [] →
      ∃ t, exec .mapReadComplete s = .next t ∧ OnlyChanges [.arb, .tp] s t
        ∧ t.arb = { s.arb with grant := none }
        ∧ t.tp.data = (s.tp.data.put 0 e.word0).put 1 e.word1 ∧ t.tp.result = .ok ∧ t.tp.tableId = s.tp.tableId
        ∧ (s.tp.autoAdvance = false → t.tp.index = s.tp.index ∧ t.tp.wrapped = s.tp.wrapped)
        ∧ (s.tp.autoAdvance = true → s.tp.tableId.toNat ≤ 1 → s.tp.index.toNat < 527 →
            t.tp.index.toNat = s.tp.index.toNat + 1 ∧ t.tp.wrapped = s.tp.wrapped)
        ∧ (s.tp.autoAdvance = true → s.tp.tableId.toNat ≤ 1 → s.tp.index.toNat = 527 →
            t.tp.index = 0 ∧ t.tp.wrapped = true))
    ∧ (∀ e, s.arb.grant = some (.hostWrite e) → s.bus.held = [] → BanksCanonical s →
      ∃ t, exec .mapWriteComplete s = .next t ∧ OnlyChanges [.bankA, .bankB, .arb, .tp] s t
        ∧ t.arb = { s.arb with grant := none }
        ∧ (∀ b i, Bank.read (t.bank b) i
            = if b = s.bc.active.other ∧ i = s.tp.index.toNat then e else Bank.read (s.bank b) i)
        ∧ t.tp.data = s.tp.data ∧ t.tp.result = .ok ∧ t.tp.tableId = s.tp.tableId
        ∧ (s.tp.autoAdvance = false → t.tp.index = s.tp.index ∧ t.tp.wrapped = s.tp.wrapped)
        ∧ (s.tp.autoAdvance = true → s.tp.tableId.toNat ≤ 1 → s.tp.index.toNat < 527 →
            t.tp.index.toNat = s.tp.index.toNat + 1 ∧ t.tp.wrapped = s.tp.wrapped)
        ∧ (s.tp.autoAdvance = true → s.tp.tableId.toNat ≤ 1 → s.tp.index.toNat = 527 →
            t.tp.index = 0 ∧ t.tp.wrapped = true))
    ∧ ((∀ e, s.arb.grant ≠ some (.hostRead e)) → exec .mapReadComplete s = .next s)
    ∧ ((∀ e, s.arb.grant ≠ some (.hostWrite e)) → exec .mapWriteComplete s = .next s)

/-- The stretch limit expires while a host claim waits, with no access waiting (11 section 11.4): the claim is withdrawn with
the result TIMEOUT, TP_TIMEOUT is set, and the data words, the cursor, WRAPPED and both banks are unchanged. An expiry after
the grant has no effect; that one with no operation in flight has none either is the model's reading (log 3). -/
def Obligations.StretchLimitWithdrawsTheClaim : Prop :=
  (∀ (op : HostOp) (s : State), s.arb.hostClaim = some op → s.bus.held = [] → s.arb.grant.any Grant.isHost = false →
    ∃ t, exec .stretchLimitExpiry s = .next t ∧ OnlyChanges [.arb, .tp, .irq] s t
      ∧ t.arb = { s.arb with hostClaim := none } ∧ t.tp = { s.tp with result := .timeout, timer := none }
      ∧ t.irq = { s.irq with tpTimeout := true } ∧ t.rdy = true)
  ∧ ∀ s : State, s.arb.hostClaim = none → exec .stretchLimitExpiry s = .next s

/-- A granted copy step completes (06 sections 6.4 and 6.5): the entry of the active bank at its index is written to the
staged bank and every other entry of both banks reads as before. In a copy in progress the index advances and the next
claim is placed, and after step 527 the pair is STABLE, the staged bank VALID, COPY_DONE is set and its event appended when
there is room. The step of an aborted copy does no more. With no copy step granted nothing happens (log 3). -/
def Obligations.CopyStepWritesOneEntry : Prop :=
  (∀ (i : Nat) (live : Bool) (s : State), s.arb.grant = some (.copyStep i live) → BanksCanonical s →
    ∃ t, exec .copyStepComplete s = .next t ∧ OnlyChanges [.bankA, .bankB, .bc, .arb, .evq, .irq] s t
      ∧ (∀ b k, Bank.read (t.bank b) k
          = if b = s.bc.active.other ∧ k = i then Bank.read (s.bank s.bc.active) i else Bank.read (s.bank b) k)
      ∧ (live = false → t.bc = s.bc ∧ t.arb = { s.arb with grant := none } ∧ t.evq = s.evq ∧ t.irq = s.irq)
      ∧ (live = true → s.bc.copyIndex < 527 →
          t.bc = { s.bc with copyIndex := s.bc.copyIndex + 1 }
          ∧ t.arb = { s.arb with grant := none, copyClaim := some (s.bc.copyIndex + 1) }
          ∧ t.evq = s.evq ∧ t.irq = s.irq)
      ∧ (live = true → s.bc.copyIndex = 527 →
          t.bc = { s.bc with copyIndex := 528, pair := .stable, stagedValid := true }
          ∧ t.arb = { s.arb with grant := none } ∧ t.irq.copyDone = true
          ∧ (s.evq.records.length < 32 → t.evq.records = s.evq.records ++ [⟨.copyDone, 0, 0, 1, 0, 0⟩])))
  ∧ ∀ s : State, (∀ i live, s.arb.grant ≠ some (.copyStep i live)) → exec .copyStepComplete s = .next s

/-- R98, whole: how a COMMIT is judged, and what a refused one leaves. -/
def Obligations.CommitIsJudgedAgainstThePair : Prop :=
  ∀ s : State, s.stretched = false →
    (s.bc.pair = .commitPending ∨ s.bc.pair = .copying →
      exec .commit s = .next (s.withBc { s.bc with result := .busy }))
    ∧ (s.bc.pair = .stable → s.bc.stagedValid = false →
      exec .commit s = .next (s.withBc { s.bc with result := .stagedIncomplete }))
    ∧ (s.bc.pair = .stable → s.bc.stagedValid = true →
      ∃ t, exec .commit s = .next t ∧ t.bc.result = .ok ∧ t.bc.active = s.bc.active.other
        ∧ t.bc.stagedValid = true
        ∧ (∀ n, s.running n = false → t.bc.current.get n = t.bc.active ∧ t.bc.adoptionSet.get n = false)
        ∧ (∀ n, s.running n = true → t.bc.current.get n = s.bc.current.get n ∧ t.bc.adoptionSet.get n = true)
        ∧ ((∃ n, s.running n = true) → t.bc.pair = .commitPending)
        ∧ ((∀ n, s.running n = false) → t.bc.pair = .stable))

/-- What an accepted COMMIT leaves and reports (06 sections 6.3.1 and 6.3.4): no map entry, line, store or reader changes;
with a running line nothing is reported, and with none the commit is complete at once: the COMMIT_DONE status is set, and
its event, naming the bank now active, is appended when there is room. -/
def Obligations.CommitCompletesWhenNoLineRuns : Prop :=
  ∀ s : State, s.stretched = false → s.bc.pair = .stable → s.bc.stagedValid = true →
    ∃ t, exec .commit s = .next t ∧ OnlyChanges [.bc, .evq, .irq] s t ∧ t.bc.copyIndex = s.bc.copyIndex
      ∧ ((∃ n, s.running n = true) → t.evq = s.evq ∧ t.irq = s.irq)
      ∧ ((∀ n, s.running n = false) → t.irq = { s.irq with
            evqLoss := t.irq.evqLoss, commitDone := true }
          ∧ (s.evq.records.length < 32 → t.irq.evqLoss = s.irq.evqLoss
            ∧ t.evq.records = s.evq.records ++ [⟨.commitDone, 0, 0, 1, if t.bc.active = .B then 1 else 0, 0⟩]))

/-- COPY is refused with BUSY outside STABLE, and accepted in STABLE whatever the staged validity: the pair is COPYING with
copy index 0 and a copy claim for index 0 (06 section 6.4). -/
def Obligations.CopyBeginsAtIndexZero : Prop :=
  ∀ s : State, s.stretched = false →
    (s.bc.pair ≠ .stable → exec .copy s = .next (s.withBc { s.bc with result := .busy }))
    ∧ (s.bc.pair = .stable → exec .copy s
        = .next ((s.withBc { s.bc with pair := .copying, copyIndex := 0, result := .ok }).withArb
            { s.arb with copyClaim := some 0 }))

/-! ### The host line -/

/-- R130, whole: a write to INSERT_DATA, in every state of the host line and of the pending frame, and a read of it. -/
def Obligations.InsertDataIsComposed : Prop :=
  ∀ (v : Word) (s : State), s.stretched = false →
    ((s.host.compose.length < (s.lines.get hostLine).config.slotCount →
        exec (.insertDataWrite v) s = .next (s.withHost { s.host with compose := s.host.compose ++ [v] }))
    ∧ ((s.lines.get hostLine).config.slotCount ≤ s.host.compose.length →
        exec (.insertDataWrite v) s = .next (s.withHost { s.host with overFlag := true })))
    ∧ readRegister s 0x20 = 0 ∧ decodeRead 0x20 = none

/-- SUBMIT, DISCARD and CAPTURE_POP (08 sections 8.2 and 8.4) act on the host line block alone: a SUBMIT is refused with BUSY
while a frame is pending and with SHORT while words are missing, and otherwise the composed words become the pending frame;
a DISCARD empties the compose buffer; a pop removes the head frame and returns the read index to 0. -/
def Obligations.InsertAndCaptureCommands : Prop :=
  ∀ s : State, s.stretched = false →
    (s.host.insertPending ≠ none → exec .submit s = .next (s.withHost { s.host with busyFlag := true, shortFlag := false }))
    ∧ (s.host.insertPending = none → s.host.compose.length < (s.lines.get hostLine).config.slotCount →
        exec .submit s = .next (s.withHost { s.host with shortFlag := true, busyFlag := false }))
    ∧ (s.host.insertPending = none → (s.lines.get hostLine).config.slotCount ≤ s.host.compose.length →
        exec .submit s = .next (s.withHost { s.host with
          insertPending := some ⟨(s.lines.get hostLine).config.slotCount, s.host.compose⟩
          compose := [], overFlag := false, shortFlag := false, busyFlag := false }))
    ∧ exec .discard s
        = .next (s.withHost { s.host with compose := [], overFlag := false, shortFlag := false, busyFlag := false })
    ∧ (∀ v, s.host.captures = [] → exec (.capturePop v) s = .next s)
    ∧ ∀ v c rest, s.host.captures = c :: rest →
        exec (.capturePop v) s = .next (s.withHost { s.host with captures := rest, readIndex := 0 })

/-- A boundary at the host line block (08 sections 8.3 and 8.4): a pending frame is consumed, numbered and arms underrun
reporting; with none the underrun is counted, reported only when armed, and disarms. The frame fixed before is appended to the
capture queue, which ends a run of overflows, or dropped and counted when the queue holds 8; with no frame fixed the queue and
the run are kept. It is captured blank if its span has seen suspension and as fixed if not; the span of the frame to come
begins with the suspension flag as it stands (R127). That the fixed frame ends here is the model's reading (log 12). The
compose buffer and the read index are kept, and so are last words, program and views. Every record that the boundary sends is
one of these, with room behind the records of before: an OVERRUN for the first discard of a run, an INSERT_UNDERRUN only when
reporting is armed, a CAPTURE_OVERFLOW for the first drop of a run. They stand here in the order in which they are sent, an
INSERT_UNDERRUN before a CAPTURE_OVERFLOW (R128); at a frame start the queue may take an OVERRUN, which is the store's, and a
CAPTURE_OVERFLOW the other way round (log 6). That the stamp of a CAPTURE_OVERFLOW counts the insert handed over at the same
boundary is the model's choice (log 21). -/
def Obligations.HostBoundaryHandsOverAndCaptures : Prop :=
  ∀ s : State,
    let t := hostBoundary s
    OnlyChanges [.stores, .txas, .host, .counters, .evq, .irq] s t
    ∧ OnlyLine hostLine s.stores t.stores ∧ OnlyLine hostLine s.counters t.counters ∧ OnlyLine hostLine s.txas t.txas
    ∧ t.host = { s.host with insertPending := none, underrunArmed := s.host.insertPending.isSome,
                             captures := t.host.captures, overflowRun := t.host.overflowRun }
    ∧ t.txas.get hostLine = { s.txas.get hostLine with
        fixed := none, spanSuspended := (s.txas.get hostLine).suspended }
    ∧ (∀ f, s.host.insertPending = some f →
        (t.stores.get hostLine).frameCount = (s.stores.get hostLine).frameCount + 1
        ∧ t.host.underrunArmed = true ∧ t.counter hostLine INSERT_UNDERRUNS = s.counter hostLine INSERT_UNDERRUNS
        ∧ (∀ i, (s.stores.get hostLine).choose = some i →
            ((t.stores.get hostLine).buffers.get i).state = .ready
            ∧ ((t.stores.get hostLine).buffers.get i).number = some ((s.stores.get hostLine).frameCount + 1)
            ∧ ((t.stores.get hostLine).buffers.get i).damaged = false
            ∧ ∀ k, k < f.words.length →
                ((t.stores.get hostLine).buffers.get i).words.getD k 0 = f.words.getD k 0)
        ∧ ((s.stores.get hostLine).choose = none →
            (t.stores.get hostLine).buffers = (s.stores.get hostLine).buffers
            ∧ t.counter hostLine OVERRUNS = satInc (s.counter hostLine OVERRUNS)))
    ∧ (s.host.insertPending = none →
        t.stores = s.stores ∧ t.host.underrunArmed = false
        ∧ t.counter hostLine INSERT_UNDERRUNS = satInc (s.counter hostLine INSERT_UNDERRUNS))
    ∧ (s.evq.records.length ≤ 30 → t.evq.records = s.evq.records
        ++ (if s.host.insertPending.isSome then
              (if (s.stores.get hostLine).choose = none ∧ (s.stores.get hostLine).overrunRun = false then
                [⟨.overrun, 8, 0, 1, 0, s.stampOf hostLine⟩] else [])
            else if s.host.underrunArmed then [⟨.insertUnderrun, 8, 0, 1, 0, s.stampOf hostLine⟩] else [])
        ++ (if (s.txas.get hostLine).fixed.isSome ∧ 8 ≤ s.host.captures.length ∧ s.host.overflowRun = false then
              [⟨.captureOverflow, 8, 0, 1, 0, t.stampOf hostLine⟩] else []))
    ∧ (s.host.underrunArmed = false → ∀ r ∈ t.evq.records, r.kind = .insertUnderrun → r ∈ s.evq.records)
    ∧ ((s.txas.get hostLine).fixed = none →
        t.host.captures = s.host.captures ∧ t.host.overflowRun = s.host.overflowRun)
    ∧ (∀ f, (s.txas.get hostLine).fixed = some f → s.host.captures.length < 8 →
        t.host.overflowRun = false ∧ t.host.captures = s.host.captures ++ [
          ⟨f.length, f.map fun w => if (s.txas.get hostLine).spanSuspended then 0 else w.getD 0,
            f.map fun w => !(s.txas.get hostLine).spanSuspended && w.isSome⟩])
    ∧ (∀ f, (s.txas.get hostLine).fixed = some f → 8 ≤ s.host.captures.length →
        t.host.captures = s.host.captures ∧ t.host.overflowRun = true
        ∧ t.counter hostLine CAPTURE_OVERFLOWS = satInc (s.counter hostLine CAPTURE_OVERFLOWS))

/-! ### Supervision -/

/-- A write to GROUP_POLICY sets the four policies (09 section 9.4). It removes no cause and adds only GROUP, to exactly the
lines of a group that gains ISOLATE_GROUP while another of its lines holds an own cause; a line whose isolating condition holds
after the write is suspended, and no suspension ends. With room in the queue the FAULT events of the lines that gain GROUP
follow, in increasing order of line number (R154); that this is one order over all the groups that the write reaches is the
model's reading (log 6). -/
def Obligations.GroupPolicyTakesEffectAtOnce : Prop :=
  ∀ (v : Word) (s : State), s.stretched = false → SuspensionLaw s → ∃ t, exec (.groupPolicyWrite v) s = .next t
    ∧ OnlyChanges [.policies, .causes, .txas, .evq, .irq] s t
    ∧ (∀ g, t.policies.get g = Policy.ofCode (v.field (2 * g.val) 2))
    ∧ (∀ n, (t.causes.get n).lost = (s.causes.get n).lost ∧ (t.causes.get n).degraded = (s.causes.get n).degraded
        ∧ ((t.causes.get n).group = true ↔ (s.causes.get n).group = true
            ∨ (t.policyOf n = .isolateGroup ∧ s.policyOf n ≠ .isolateGroup ∧ s.otherOwnCause n = true)))
    ∧ (∀ n, t.isolating n = true → (t.txas.get n).suspended = true)
    ∧ (∀ n, (s.txas.get n).suspended = true → (t.txas.get n).suspended = true)
    ∧ (∀ n, (t.txas.get n).fixed = (s.txas.get n).fixed ∧ (t.txas.get n).lastWords = (s.txas.get n).lastWords)
    ∧ (s.evq.records.length ≤ 23 → t.evq.records = s.evq.records ++ groupFaults s fun n =>
        t.policyOf n == .isolateGroup && s.policyOf n != .isolateGroup && s.otherOwnCause n)

/-- Writes to LINE_RELEASE and GROUP_RELEASE (09 section 9.5): a named FAULTED line has its causes emptied, and gains GROUP
again only where its group's policy is ISOLATE_GROUP and a line of the group that is not released holds an own cause; its
receiver goes from LOST to HUNT. Every other line keeps its causes and its receiver. Counters, windows and stores are kept.
No suspension flag is cleared, and only that of a line that gains GROUP again is set (R125). With room in the queue the
RELEASE events of the released lines and then the FAULT events of the lines that gain GROUP again are appended, each in
increasing order of line number. -/
def Obligations.ReleaseEmptiesCauses : Prop :=
  ∀ (v : Word) (s : State), s.stretched = false →
    ∀ (c : Instr) (named : Line → Bool),
      (c = .lineRelease v ∧ named = lineBit v) ∨ (c = .groupRelease v ∧ named = fun n => v.bit (s.groupOf n).val) →
      ∃ t, exec c s = .next t ∧ OnlyChanges [.lines, .causes, .txas, .evq, .irq] s t
        ∧ (∀ n, named n = true → s.faulted n = true →
            (t.causes.get n).lost = false ∧ (t.causes.get n).degraded = false
            ∧ ((t.causes.get n).group = true ↔ s.policyOf n = .isolateGroup
                ∧ ∃ m, m ≠ n ∧ s.groupOf m = s.groupOf n ∧ named m = false ∧ (s.causes.get m).own = true)
            ∧ t.lines.get n = if (s.lines.get n).receiver = .lost then
                { s.lines.get n with receiver := .hunt, verifyCount := 0, timerArmed := false } else s.lines.get n)
        ∧ (∀ n, named n = false ∨ s.faulted n = false →
            t.causes.get n = s.causes.get n ∧ t.lines.get n = s.lines.get n)
        ∧ (let released : Line → Bool := fun n => named n && s.faulted n;
          (∀ n, (t.txas.get n).suspended
              = ((s.txas.get n).suspended || (released n && (t.causes.get n).group))
            ∧ (t.txas.get n).fixed = (s.txas.get n).fixed ∧ (t.txas.get n).lastWords = (s.txas.get n).lastWords)
          ∧ (s.evq.records.length ≤ 14 → t.evq.records = s.evq.records
            ++ (allLines.filter released).map (fun n => ⟨.release, n, 0, 1, 0, s.stampOf n⟩)
            ++ (allLines.filter fun n => released n && (t.causes.get n).group).map
                fun n => ⟨.fault, n, 0, 1, 3, s.stampOf n⟩))

/-! ### Event queue and interrupt -/

/-- How an event reaches the queue (10 section 10.2): appended with room, merged into the slip record of its kind and pair even
when the list is full, and otherwise lost and counted, with EVQ_LOSS set and the list unchanged. A slip event that finds no
record of its kind and pair is appended as a record with count 1, or lost. The records of one event of the lines' timing are
all taken, each chain that one occurrence sends in its order, whatever turns the command names (R165; the turns are the model's
operand, log 6): so a FAULT with the detail LOST or GROUP stands behind the record sent next before it, and the
CAPTURE_OVERFLOW of a host-line boundary behind its INSERT_UNDERRUN (R128). -/
def Obligations.EventsAreAppendedMergedOrLost : Prop :=
  (∀ (r : EventRecord) (s : State),
    (s.evq.records.length < 32 →
      appendRecord r s = s.withEvq { s.evq with records := s.evq.records ++ [r] })
    ∧ (32 ≤ s.evq.records.length →
      OnlyChanges [.evq, .irq] s (appendRecord r s) ∧ (appendRecord r s).evq.records = s.evq.records
      ∧ (appendRecord r s).evq.lost.toNat = min 255 (s.evq.lost.toNat + 1)
      ∧ (appendRecord r s).evq.latch = s.evq.latch
      ∧ (appendRecord r s).irq = { s.irq with evqLoss := true }))
  ∧ (∀ (kind : EventKind) (y x : Line) (skipped : Nat) (s : State) (before after : List EventRecord) (r : EventRecord),
      s.evq.records = before ++ r :: after → r.kind = kind → r.lineA = y → r.lineB = x →
      (∀ q ∈ before ++ after, ¬ (q.kind = kind ∧ q.lineA = y ∧ q.lineB = x)) →
      sendSlip kind y x skipped s = s.withEvq { s.evq with
        records := before ++ { r with
          count := BitVec.ofNat 16 (min 65535 (r.count.toNat + 1))
          detail := BitVec.ofNat 16 (min 65535 (r.detail.toNat + skipped)) } :: after })
  ∧ (∀ (kind : EventKind) (y x : Line) (skipped : Nat) (s : State),
      (∀ q ∈ s.evq.records, ¬ (q.kind = kind ∧ q.lineA = y ∧ q.lineB = x)) →
      sendSlip kind y x skipped s
        = appendRecord ⟨kind, y, x, 1, BitVec.ofNat 16 (min 65535 skipped), s.stampOf y⟩ s)
  ∧ (∀ (turns : List Nat) (sent : List EventRecord), (interleave turns (chains sent)).Perm sent
      ∧ ∀ c ∈ chains sent, c.Sublist (interleave turns (chains sent)))
  ∧ ∀ (turns : List Nat) (before after : List EventRecord) (r q : EventRecord),
      (q.kind = .fault ∧ q.detail ≠ 2) ∨ (r.kind = .insertUnderrun ∧ q.kind = .captureOverflow) →
      [r, q].Sublist (interleave turns (chains (before ++ r :: q :: after)))

/-- The host's writes to the event queue and the interrupt registers (10 sections 10.3 and 10.4): EVQ_POP removes the head
record, EVQ_COUNT clears the lost count, IRQ_STATUS clears the sticky bits written 1, IRQ_ENABLE replaces the eight
enables; none changes anything else. -/
def Obligations.QueueAndInterruptWrites : Prop :=
  ∀ (v : Word) (s : State), s.stretched = false →
    exec (.evqPop v) s = .next (s.withEvq { s.evq with records := s.evq.records.drop 1 })
    ∧ exec (.evqCountWrite v) s = .next (s.withEvq { s.evq with lost := 0 })
    ∧ (∃ t, exec (.irqStatusWrite v) s = .next t ∧ OnlyChanges [.irq] s t ∧ t.irq.enable = s.irq.enable
      ∧ (t.irq.evqLoss = true ↔ s.irq.evqLoss = true ∧ v.getLsbD 8 = false)
      ∧ (t.irq.commitDone = true ↔ s.irq.commitDone = true ∧ v.getLsbD 9 = false)
      ∧ (t.irq.copyDone = true ↔ s.irq.copyDone = true ∧ v.getLsbD 10 = false)
      ∧ (t.irq.tpTimeout = true ↔ s.irq.tpTimeout = true ∧ v.getLsbD 11 = false))
    ∧ ∃ t, exec (.irqEnableWrite v) s = .next t ∧ OnlyChanges [.irq] s t
      ∧ t.irq = { s.irq with enable := t.irq.enable }
      ∧ ∀ b, b < 16 → (t.irq.enable.getLsbD b = true ↔ v.getLsbD b = true ∧ (b < 4 ∨ (8 ≤ b ∧ b < 12)))

/-- R171, whole: what EVQ_COUNT shows, what a write to it does and does not clear, and a write that falls together with a
lost event, in both orders. -/
def Obligations.EventCountShowsAndClears : Prop :=
  ∀ (v : Word) (s : State), s.stretched = false → s.evq.records.length ≤ 32 →
    (readRegister s 0x1A).field 0 6 = s.evq.records.length ∧ (readRegister s 0x1A).field 8 8 = s.evq.lost.toNat
    ∧ exec (.evqCountWrite v) s = .next (s.withEvq { s.evq with lost := 0 })
    ∧ (∀ w : Word, w.getLsbD 8 = true →
        ∃ t, exec (.irqStatusWrite w) s = .next t ∧ t.irq.evqLoss = false ∧ t.evq = s.evq)
    ∧ ∀ r : EventRecord, s.evq.records.length = 32 →
        ((appendRecord r (s.withEvq { s.evq with lost := 0 })).evq.lost = 1
          ∧ (appendRecord r (s.withEvq { s.evq with lost := 0 })).irq.evqLoss = true)
        ∧ ∃ t, exec (.evqCountWrite v) (appendRecord r s) = .next t ∧ t.evq.lost = 0 ∧ t.irq.evqLoss = true

/-- The eight bits of IRQ_STATUS, the four levels from the state of their blocks, and IRQ_N asserted exactly while some bit and
its enable are both set (10 section 10.4, 11 section 11.2). The words read from the other registers, with the fields of Table
11-2 and 0 in their remaining bits (R177): IRQ_ENABLE, LINE_ENABLE, the periods and phases of the generators, GROUP_POLICY,
EXCH_STATUS, FG_STATUS, FAULT_SUMMARY, TP_STATUS, EVQ_HEAD1 to EVQ_HEAD3, INSERT_STATUS, CAPTURE_STATUS and CAPTURE_MASK, the
counts of the host line block within their ranges (R129). -/
def Obligations.InterruptStatusAndLine : Prop :=
  ∀ s : State,
    (∀ b, (readRegister s 0x18).getLsbD b = true ↔
      (b = 0 ∧ s.evq.records ≠ []) ∨ (b = 1 ∧ ∃ n, (s.causes.get n).faulted = true) ∨ (b = 2 ∧ s.host.captures ≠ [])
      ∨ (b = 3 ∧ s.running hostLine = true ∧ s.host.insertPending = none)
      ∨ (b = 8 ∧ s.irq.evqLoss = true) ∨ (b = 9 ∧ s.irq.commitDone = true) ∨ (b = 10 ∧ s.irq.copyDone = true)
      ∨ (b = 11 ∧ s.irq.tpTimeout = true))
    ∧ (s.irqAsserted = true ↔
        ∃ b, (readRegister s 0x18).getLsbD b = true ∧ (readRegister s 0x19).getLsbD b = true)
    ∧ readRegister s 0x19 = s.irq.enable
    ∧ (∀ b, (readRegister s 0x03).getLsbD b = true ↔ ∃ n : Line, n.val = b ∧ (s.lines.get n).enabled = true)
    ∧ (readRegister s 0x06 = (s.gens.get 0).period ∧ readRegister s 0x07 = (s.gens.get 0).phase
      ∧ readRegister s 0x08 = (s.gens.get 1).period ∧ readRegister s 0x09 = (s.gens.get 1).phase)
    ∧ ((∀ g : Fin 4, (readRegister s 0x0B).field (2 * g.val) 2 = (match s.policies.get g with
          | .notify => 0 | .silence => 1 | .isolate => 2 | .isolateGroup => 3))
      ∧ (readRegister s 0x0B).field 8 8 = 0)
    ∧ ((readRegister s 0x02).field 0 2 = (match s.bc.pair with | .stable => 0 | .commitPending => 1 | .copying => 2)
      ∧ ((readRegister s 0x02).getLsbD 4 = true ↔ s.bc.active = .B)
      ∧ ((readRegister s 0x02).getLsbD 5 = true ↔ s.bc.stagedValid = false)
      ∧ (readRegister s 0x02).field 8 2
          = (match s.bc.result with | .none => 0 | .ok => 1 | .busy => 2 | .stagedIncomplete => 3)
      ∧ ∀ b, b ∉ ([0, 1, 4, 5, 8, 9] : List Nat) → (readRegister s 0x02).getLsbD b = false)
    ∧ (∀ b, (readRegister s 0x0A).getLsbD b = true ↔
      (b = 0 ∧ (s.gens.get 0).running = true) ∨ (b = 1 ∧ (s.gens.get 1).running = true)
      ∨ (b = 4 ∧ (s.gens.get 0).refused = true) ∨ (b = 5 ∧ (s.gens.get 1).refused = true))
    ∧ (∀ b, (readRegister s 0x0E).getLsbD b = true ↔ ∃ n : Line, n.val = b ∧ (s.causes.get n).faulted = true)
    ∧ ((readRegister s 0x17).field 0 4 = (match s.tp.result with
          | .ok => 0 | .rejectField => 1 | .rejectLive => 2 | .rejectBusy => 3
          | .readOnly => 4 | .noTable => 5 | .noEntry => 6 | .timeout => 7)
      ∧ ((readRegister s 0x17).getLsbD 15 = true ↔ s.tp.wrapped = true) ∧ (readRegister s 0x17).field 4 11 = 0)
    ∧ (readRegister s 0x1C = s.evq.latch.get 1 ∧ readRegister s 0x1D = s.evq.latch.get 2
      ∧ readRegister s 0x1E = s.evq.latch.get 3)
    ∧ (s.host.compose.length ≤ 16 →
      (readRegister s 0x21).field 0 5 = s.host.compose.length
      ∧ ∀ b, 5 ≤ b → ((readRegister s 0x21).getLsbD b = true ↔
        (b = 8 ∧ s.host.insertPending ≠ none) ∨ (b = 12 ∧ s.host.overFlag = true)
        ∨ (b = 13 ∧ s.host.shortFlag = true) ∨ (b = 14 ∧ s.host.busyFlag = true)))
    ∧ (s.host.captures.length ≤ 8 → s.host.readIndex ≤ 15 → (∀ c ∈ s.host.captures, c.slotCount ≤ 16) →
      (readRegister s 0x23).field 0 4 = s.host.captures.length
      ∧ (readRegister s 0x23).field 4 5 = (match s.host.captures with | [] => 0 | c :: _ => c.slotCount)
      ∧ (readRegister s 0x23).field 9 3 = 0 ∧ (readRegister s 0x23).field 12 4 = s.host.readIndex)
    ∧ ∀ b, b < 16 → (readRegister s 0x25).getLsbD b
        = (match s.host.captures with | [] => false | c :: _ => c.mask.getD b false)

/-! ### The table port -/

/-- Writes to TP_CURSOR, TP_CONTROL and TP_DATA, the sizes and record lengths of the tables (Table 11-3), and the words read
from these registers: a data word that is not in use reads 0 (11 section 11.3). -/
def Obligations.TablePortRegisterWrites : Prop :=
  (∀ (v : Word) (s : State), s.stretched = false →
    (∃ t, exec (.tpCursorWrite v) s = .next t ∧ OnlyChanges [.tp] s t
      ∧ t.tp.tableId.toNat = v.toNat / 4096 ∧ t.tp.index.toNat = v.toNat % 1024 ∧ t.tp.wrapped = false
      ∧ (∀ k, t.tp.data.get k = if recordLength t.tp.tableId ≤ k.val then 0 else s.tp.data.get k)
      ∧ t.tp = { s.tp with tableId := t.tp.tableId, index := t.tp.index, wrapped := false, data := t.tp.data })
    ∧ (∃ t, exec (.tpControlWrite v) s = .next t ∧ OnlyChanges [.tp] s t
      ∧ t.tp.autoAdvance = v.getLsbD 0 ∧ t.tp.clearOnRead = v.getLsbD 1
      ∧ t.tp.limit.toNat = (if v.toNat / 256 = 0 then s.tp.limit.toNat else v.toNat / 256)
      ∧ t.tp = { s.tp with
          autoAdvance := t.tp.autoAdvance, clearOnRead := t.tp.clearOnRead, limit := t.tp.limit })
    ∧ ∀ k : Fin 4,
      (k.val < recordLength s.tp.tableId →
        exec (.tpDataWrite k v) s = .next (s.withTp { s.tp with data := s.tp.data.put k v }))
      ∧ (recordLength s.tp.tableId ≤ k.val → exec (.tpDataWrite k v) s = .next s))
  ∧ (∀ id : BitVec 4, (tableSize id, recordLength id) = (match id.toNat with
      | 0 => (528, 2) | 1 => (528, 2) | 2 => (9, 3) | 3 => (9, 4) | 4 => (72, 1) | _ => (0, 0)))
  ∧ ∀ s : State,
    ((readRegister s 0x10).field 0 10 = s.tp.index.toNat ∧ (readRegister s 0x10).field 10 2 = 0
      ∧ (readRegister s 0x10).field 12 4 = s.tp.tableId.toNat)
    ∧ ((readRegister s 0x11).getLsbD 0 = s.tp.autoAdvance ∧ (readRegister s 0x11).getLsbD 1 = s.tp.clearOnRead
      ∧ (readRegister s 0x11).field 2 6 = 0 ∧ (readRegister s 0x11).field 8 8 = s.tp.limit.toNat)
    ∧ ∀ k : Fin 4, readRegister s (BitVec.ofNat 6 (0x12 + k.val))
        = if k.val < recordLength s.tp.tableId then s.tp.data.get k else 0

/-- TP_COMMAND written with READ (11 section 11.3): a table or an entry that does not exist is refused; a READ of a map table
places the host claim and starts the stretch limit; a READ of any other table completes at once with OK and the record in the
data words, and only a COUNTERS READ with CLEAR_ON_READ changes anything else, the counter it read. The words of a LINE_STATUS
record have the fields of Table 11-7 (R54, R96, R160), the damaged flag and the holder count of a FREE or FILLING buffer
reading 0. Under AUTO_ADVANCE the cursor then moves on, and from the last entry of its table to entry 0 with WRAPPED set
(R184). -/
def Obligations.TablePortRead : Prop :=
  ∀ s : State, s.stretched = false →
    (5 ≤ s.tp.tableId.toNat →
      exec .tpRead s = .next (s.withTp { s.tp with result := .noTable, timer := none }))
    ∧ (s.tp.tableId.toNat ≤ 4 → tableSize s.tp.tableId ≤ s.tp.index.toNat →
      exec .tpRead s = .next (s.withTp { s.tp with result := .noEntry, timer := none }))
    ∧ (s.tp.tableId.toNat ≤ 1 → s.tp.index.toNat < 528 →
      exec .tpRead s = .next ((s.withArb { s.arb with hostClaim := some .read }).withTp
        { s.tp with timer := some (s.tp.limit.toNat * 64) }))
    ∧ (∀ n : Line, s.tp.tableId = 2 → s.tp.index.toNat = n.val →
      ∃ t, exec .tpRead s = .next t ∧ OnlyChanges [.tp] s t ∧ t.tp.result = .ok
        ∧ t.tp.data = #v[(s.lines.get n).config.word0, (s.lines.get n).config.word1, (s.lines.get n).config.word2, 0]
        ∧ (t.tp.index, t.tp.wrapped) = (if s.tp.autoAdvance = true then
            (if n.val = 8 then (0, true) else (s.tp.index + 1, s.tp.wrapped))
          else (s.tp.index, s.tp.wrapped)))
    ∧ (∀ n : Line, s.tp.tableId = 3 → s.tp.index.toNat = n.val →
      ∃ t, exec .tpRead s = .next t ∧ OnlyChanges [.tp] s t ∧ t.tp.result = .ok
        ∧ ((s.lines.get n).verifyCount ≤ 2 → ShowsLineStatus s n t.tp.data)
        ∧ (t.tp.index, t.tp.wrapped) = (if s.tp.autoAdvance = true then
            (if n.val = 8 then (0, true) else (s.tp.index + 1, s.tp.wrapped))
          else (s.tp.index, s.tp.wrapped)))
    ∧ ∀ (n : Line) (k : Fin 8), s.tp.tableId = 4 → s.tp.index.toNat = n.val * 8 + k.val →
      ∃ t, exec .tpRead s = .next t ∧ OnlyChanges [.tp, .counters] s t ∧ t.tp.result = .ok
        ∧ t.tp.data = #v[s.counter n k, 0, 0, 0]
        ∧ (∀ m j, t.counter m j = if s.tp.clearOnRead = true ∧ m = n ∧ j = k then 0 else s.counter m j)
        ∧ (t.tp.index, t.tp.wrapped) = (if s.tp.autoAdvance = true then
            (if s.tp.index.toNat = 71 then (0, true) else (s.tp.index + 1, s.tp.wrapped))
          else (s.tp.index, s.tp.wrapped))

/-- TP_COMMAND written with WRITE (11 section 11.3): the tests in their order, each with its result and nothing else changed;
an admitted WRITE to MAP_STAGED places the host claim with the entry that the data words hold and starts the stretch limit;
an admitted WRITE to LINE_CONFIG replaces the whole record at once with the result OK, and the cursor moves on under
AUTO_ADVANCE (R184). A new containment group moves the line (R156): its causes are kept, its flag is set where the new
group's policy isolates it, and under ISOLATE_GROUP every other line of the new group gains GROUP where the moved line holds
an own cause, and the moved line where another line of the group holds one; with room in the queue a FAULT event of each
follows, in increasing order of line number (the model's order, log 20). -/
def Obligations.TablePortWrite : Prop :=
  ∀ s : State, s.stretched = false →
    (5 ≤ s.tp.tableId.toNat →
      exec .tpWrite s = .next (s.withTp { s.tp with result := .noTable, timer := none }))
    ∧ (s.tp.tableId.toNat ≤ 4 → tableSize s.tp.tableId ≤ s.tp.index.toNat →
      exec .tpWrite s = .next (s.withTp { s.tp with result := .noEntry, timer := none }))
    ∧ (s.tp.tableId = 1 ∨ s.tp.tableId = 3 ∨ s.tp.tableId = 4 → s.tp.index.toNat < tableSize s.tp.tableId →
      exec .tpWrite s = .next (s.withTp { s.tp with result := .readOnly, timer := none }))
    ∧ (s.tp.tableId = 0 → s.tp.index.toNat < 528 →
      (MapEntry.decode? (s.tp.data.get 0) (s.tp.data.get 1) = none →
        exec .tpWrite s = .next (s.withTp { s.tp with result := .rejectField, timer := none }))
      ∧ ∀ e, MapEntry.decode? (s.tp.data.get 0) (s.tp.data.get 1) = some e →
        (s.bc.pair ≠ .stable →
          exec .tpWrite s = .next (s.withTp { s.tp with result := .rejectBusy, timer := none }))
        ∧ (s.bc.pair = .stable →
          exec .tpWrite s = .next ((s.withArb { s.arb with hostClaim := some (.write e) }).withTp
            { s.tp with timer := some (s.tp.limit.toNat * 64) })))
    ∧ ∀ n : Line, s.tp.tableId = 2 → s.tp.index.toNat = n.val →
      (LineConfig.decode? n (s.tp.data.get 0) (s.tp.data.get 1) (s.tp.data.get 2) = none →
        exec .tpWrite s = .next (s.withTp { s.tp with result := .rejectField, timer := none }))
      ∧ ∀ c, LineConfig.decode? n (s.tp.data.get 0) (s.tp.data.get 1) (s.tp.data.get 2) = some c →
        ((s.lines.get n).enabled = true → (s.lines.get n).config.timingDiffers c = true →
          exec .tpWrite s = .next (s.withTp { s.tp with result := .rejectLive, timer := none }))
        ∧ (((s.lines.get n).enabled = false ∨ (s.lines.get n).config.timingDiffers c = false) →
          ∃ t, exec .tpWrite s = .next t ∧ OnlyChanges [.lines, .txas, .host, .causes, .evq, .irq, .tp] s t
            ∧ t.tp.result = .ok ∧ t.tp.data = s.tp.data
            ∧ OnlyLine n s.lines t.lines ∧ t.lines.get n = { s.lines.get n with config := c }
            ∧ (n ≠ hostLine ∨ c.slotCount = (s.lines.get n).config.slotCount → t.host = s.host)
            ∧ (n = hostLine → c.slotCount ≠ (s.lines.get n).config.slotCount →
                t.host = { s.host with
                  compose := [], overFlag := false, shortFlag := false, busyFlag := false, insertPending := none })
            ∧ (t.tp.index, t.tp.wrapped) = (if s.tp.autoAdvance = true then
                (if n.val = 8 then (0, true) else (s.tp.index + 1, s.tp.wrapped))
              else (s.tp.index, s.tp.wrapped))
            ∧ (c.group = (s.lines.get n).config.group → t.causes = s.causes ∧ t.txas = s.txas ∧ t.evq = s.evq)
            ∧ (c.group ≠ (s.lines.get n).config.group →
              let spreads := s.policies.get c.group == .isolateGroup
              let gains : Line → Bool := fun m => spreads && (if m = n then
                  allLines.any fun x => x != n && s.groupOf x == c.group && (s.causes.get x).own
                else s.groupOf m == c.group && (s.causes.get n).own)
              (∀ m, t.causes.get m
                = if gains m = true then { s.causes.get m with group := true } else s.causes.get m)
              ∧ (∀ m, (s.txas.get m).suspended = true → (t.txas.get m).suspended = true)
              ∧ (t.isolating n = true → (t.txas.get n).suspended = true)
              ∧ (s.evq.records.length ≤ 23 → t.evq.records = s.evq.records ++ groupFaults s gains)))

/-! ### Laws of the device that every step keeps -/

/-- The laws hold in the state after a device reset. That no access waits then is the model's choice (log 9), as are the values
that log 14 names, among them the stretch-limit timer, which runs only while a claim waits. -/
def Obligations.LawsHoldAtReset : Prop :=
  ReceiverLaw State.reset ∧ ConfigLaw State.reset ∧ HoldingLaw State.reset ∧ BankPairLaw State.reset
    ∧ CopyLaw State.reset ∧ SuspensionLaw State.reset ∧ EventQueueLaw State.reset ∧ HostBlockLaw State.reset
    ∧ HostSupervisionLaw State.reset ∧ WindowLaw State.reset ∧ TablePortLaw State.reset ∧ ReadyLaw State.reset

/-- Receivers stay consistent with their enables, timing sources, counts and timers. -/
def Obligations.ReceiversStayConsistent : Prop :=
  ∀ s t : State, ReceiverLaw s → step s = .next t → ReceiverLaw t

/-- Configuration stays within its ranges, and every enabled internally timed line fits its generator's period. -/
def Obligations.ConfigurationStaysInRange : Prop :=
  ∀ s t : State, ConfigLaw s → step s = .next t → ConfigLaw t

/-- Stores, loads, readers and holder sets stay in agreement. -/
def Obligations.HoldersAndReadersStayInAgreement : Prop :=
  ∀ s t : State, HoldingLaw s → step s = .next t → HoldingLaw t

/-- The banks that the lines read follow the pair state. -/
def Obligations.LinesReadTheBankOfThePairState : Prop :=
  ∀ s t : State, BankPairLaw s → step s = .next t → BankPairLaw t

/-- While a copy is in progress the staged bank equals the active bank below the copy index, in states that meet the law of
the bank pair. -/
def Obligations.CopiedEntriesEqualTheActiveBank : Prop :=
  ∀ s t : State, BankPairLaw s ∧ CopyLaw s → step s = .next t → CopyLaw t

/-- A line whose isolating condition holds has its suspension flag set. -/
def Obligations.IsolatedLinesStaySuspended : Prop :=
  ∀ s t : State, SuspensionLaw s → step s = .next t → SuspensionLaw t

/-- The event queue stays within 32 records, with no two slip records of one kind and pair. -/
def Obligations.EventQueueStaysBoundedAndMerged : Prop :=
  ∀ s t : State, EventQueueLaw s → step s = .next t → EventQueueLaw t

/-- The collections of the host line block stay within their bounds. -/
def Obligations.HostBlockStaysWithinBounds : Prop :=
  ∀ s t : State, HostBlockLaw s → step s = .next t → HostBlockLaw t

/-- The host line has no check errors, gaps or damaged frames and gains no own cause; damage windows stay in range. -/
def Obligations.SupervisionOfHostLineAndWindows : Prop :=
  ∀ s t : State, HostSupervisionLaw s ∧ WindowLaw s → step s = .next t → HostSupervisionLaw t ∧ WindowLaw t

/-- At most one table-port operation is in flight, its timer runs while its claim waits, and an access waits only while one is
in flight. R176 says that an access that waits is taken when the operation has ended; that it is taken in the very step in
which the operation ends, and that a device reset drops the accesses that wait, so that none waits with no operation in flight,
is the model's choice (log 9). -/
def Obligations.OneTablePortOperationInFlight : Prop :=
  ∀ s t : State, TablePortLaw s ∧ ReadyLaw s → step s = .next t → TablePortLaw t ∧ ReadyLaw t

end Slice0Statements
end

