-- ==== Sys2Proof/Laws/State.lean ====
section
/-! SUPPORT. The small lemmas of the state: what each named update leaves in each field, and the read-after-write laws of
tables. All hold by `rfl` or by the laws of vectors, so that later proofs unfold no record update. -/

namespace Sys2Proof

namespace Tab
variable {α : Type} {k : Nat}

@[simp] theorem get_put_self (t : Tab α k) (i : Fin k) (a : α) : (t.put i a).get i = a := by
  simp [Tab.get, Tab.put]

@[simp] theorem get_put_ne (t : Tab α k) (i j : Fin k) (a : α) (h : j ≠ i) : (t.put i a).get j = t.get j := by
  have h' : i.val ≠ j.val := fun e => h (Fin.ext e.symm)
  simp [Tab.get, Tab.put, h']

theorem get_put (t : Tab α k) (i j : Fin k) (a : α) : (t.put i a).get j = if j = i then a else t.get j := by
  by_cases h : j = i
  · subst h; simp
  · simp [h]

@[simp] theorem get_of (f : Fin k → α) (i : Fin k) : (Tab.of f).get i = f i := by
  simp [Tab.get, Tab.of]

@[simp] theorem get_all (a : α) (i : Fin k) : (Tab.all k a).get i = a := by
  simp [Tab.get, Tab.all]

theorem ext_get {t u : Tab α k} (h : ∀ i, t.get i = u.get i) : t = u := by
  apply Vector.ext
  intro i hi
  exact h ⟨i, hi⟩

end Tab

namespace Machine.State

@[simp] theorem withLines_lines (s : State) (v : Tab LineUnit 9) : (s.withLines v).lines = v := rfl
@[simp] theorem withLines_enableRefused (s : State) (v : Tab LineUnit 9) : (s.withLines v).enableRefused = s.enableRefused := rfl
@[simp] theorem withLines_gens (s : State) (v : Tab LineUnit 9) : (s.withLines v).gens = s.gens := rfl
@[simp] theorem withLines_stores (s : State) (v : Tab LineUnit 9) : (s.withLines v).stores = s.stores := rfl
@[simp] theorem withLines_readers (s : State) (v : Tab LineUnit 9) : (s.withLines v).readers = s.readers := rfl
@[simp] theorem withLines_bankA (s : State) (v : Tab LineUnit 9) : (s.withLines v).bankA = s.bankA := rfl
@[simp] theorem withLines_bankB (s : State) (v : Tab LineUnit 9) : (s.withLines v).bankB = s.bankB := rfl
@[simp] theorem withLines_bc (s : State) (v : Tab LineUnit 9) : (s.withLines v).bc = s.bc := rfl
@[simp] theorem withLines_arb (s : State) (v : Tab LineUnit 9) : (s.withLines v).arb = s.arb := rfl
@[simp] theorem withLines_txas (s : State) (v : Tab LineUnit 9) : (s.withLines v).txas = s.txas := rfl
@[simp] theorem withLines_host (s : State) (v : Tab LineUnit 9) : (s.withLines v).host = s.host := rfl
@[simp] theorem withLines_counters (s : State) (v : Tab LineUnit 9) : (s.withLines v).counters = s.counters := rfl
@[simp] theorem withLines_windows (s : State) (v : Tab LineUnit 9) : (s.withLines v).windows = s.windows := rfl
@[simp] theorem withLines_causes (s : State) (v : Tab LineUnit 9) : (s.withLines v).causes = s.causes := rfl
@[simp] theorem withLines_policies (s : State) (v : Tab LineUnit 9) : (s.withLines v).policies = s.policies := rfl
@[simp] theorem withLines_evq (s : State) (v : Tab LineUnit 9) : (s.withLines v).evq = s.evq := rfl
@[simp] theorem withLines_irq (s : State) (v : Tab LineUnit 9) : (s.withLines v).irq = s.irq := rfl
@[simp] theorem withLines_tp (s : State) (v : Tab LineUnit 9) : (s.withLines v).tp = s.tp := rfl
@[simp] theorem withLines_bus (s : State) (v : Tab LineUnit 9) : (s.withLines v).bus = s.bus := rfl
@[simp] theorem withLines_pending (s : State) (v : Tab LineUnit 9) : (s.withLines v).pending = s.pending := rfl
@[simp] theorem withLines_received (s : State) (v : Tab LineUnit 9) : (s.withLines v).received = s.received := rfl
@[simp] theorem withLines_incoming (s : State) (v : Tab LineUnit 9) : (s.withLines v).incoming = s.incoming := rfl

@[simp] theorem withEnableRefused_lines (s : State) (v : LineSet) : (s.withEnableRefused v).lines = s.lines := rfl
@[simp] theorem withEnableRefused_enableRefused (s : State) (v : LineSet) : (s.withEnableRefused v).enableRefused = v := rfl
@[simp] theorem withEnableRefused_gens (s : State) (v : LineSet) : (s.withEnableRefused v).gens = s.gens := rfl
@[simp] theorem withEnableRefused_stores (s : State) (v : LineSet) : (s.withEnableRefused v).stores = s.stores := rfl
@[simp] theorem withEnableRefused_readers (s : State) (v : LineSet) : (s.withEnableRefused v).readers = s.readers := rfl
@[simp] theorem withEnableRefused_bankA (s : State) (v : LineSet) : (s.withEnableRefused v).bankA = s.bankA := rfl
@[simp] theorem withEnableRefused_bankB (s : State) (v : LineSet) : (s.withEnableRefused v).bankB = s.bankB := rfl
@[simp] theorem withEnableRefused_bc (s : State) (v : LineSet) : (s.withEnableRefused v).bc = s.bc := rfl
@[simp] theorem withEnableRefused_arb (s : State) (v : LineSet) : (s.withEnableRefused v).arb = s.arb := rfl
@[simp] theorem withEnableRefused_txas (s : State) (v : LineSet) : (s.withEnableRefused v).txas = s.txas := rfl
@[simp] theorem withEnableRefused_host (s : State) (v : LineSet) : (s.withEnableRefused v).host = s.host := rfl
@[simp] theorem withEnableRefused_counters (s : State) (v : LineSet) : (s.withEnableRefused v).counters = s.counters := rfl
@[simp] theorem withEnableRefused_windows (s : State) (v : LineSet) : (s.withEnableRefused v).windows = s.windows := rfl
@[simp] theorem withEnableRefused_causes (s : State) (v : LineSet) : (s.withEnableRefused v).causes = s.causes := rfl
@[simp] theorem withEnableRefused_policies (s : State) (v : LineSet) : (s.withEnableRefused v).policies = s.policies := rfl
@[simp] theorem withEnableRefused_evq (s : State) (v : LineSet) : (s.withEnableRefused v).evq = s.evq := rfl
@[simp] theorem withEnableRefused_irq (s : State) (v : LineSet) : (s.withEnableRefused v).irq = s.irq := rfl
@[simp] theorem withEnableRefused_tp (s : State) (v : LineSet) : (s.withEnableRefused v).tp = s.tp := rfl
@[simp] theorem withEnableRefused_bus (s : State) (v : LineSet) : (s.withEnableRefused v).bus = s.bus := rfl
@[simp] theorem withEnableRefused_pending (s : State) (v : LineSet) : (s.withEnableRefused v).pending = s.pending := rfl
@[simp] theorem withEnableRefused_received (s : State) (v : LineSet) : (s.withEnableRefused v).received = s.received := rfl
@[simp] theorem withEnableRefused_incoming (s : State) (v : LineSet) : (s.withEnableRefused v).incoming = s.incoming := rfl

@[simp] theorem withGens_lines (s : State) (v : Tab Generator 2) : (s.withGens v).lines = s.lines := rfl
@[simp] theorem withGens_enableRefused (s : State) (v : Tab Generator 2) : (s.withGens v).enableRefused = s.enableRefused := rfl
@[simp] theorem withGens_gens (s : State) (v : Tab Generator 2) : (s.withGens v).gens = v := rfl
@[simp] theorem withGens_stores (s : State) (v : Tab Generator 2) : (s.withGens v).stores = s.stores := rfl
@[simp] theorem withGens_readers (s : State) (v : Tab Generator 2) : (s.withGens v).readers = s.readers := rfl
@[simp] theorem withGens_bankA (s : State) (v : Tab Generator 2) : (s.withGens v).bankA = s.bankA := rfl
@[simp] theorem withGens_bankB (s : State) (v : Tab Generator 2) : (s.withGens v).bankB = s.bankB := rfl
@[simp] theorem withGens_bc (s : State) (v : Tab Generator 2) : (s.withGens v).bc = s.bc := rfl
@[simp] theorem withGens_arb (s : State) (v : Tab Generator 2) : (s.withGens v).arb = s.arb := rfl
@[simp] theorem withGens_txas (s : State) (v : Tab Generator 2) : (s.withGens v).txas = s.txas := rfl
@[simp] theorem withGens_host (s : State) (v : Tab Generator 2) : (s.withGens v).host = s.host := rfl
@[simp] theorem withGens_counters (s : State) (v : Tab Generator 2) : (s.withGens v).counters = s.counters := rfl
@[simp] theorem withGens_windows (s : State) (v : Tab Generator 2) : (s.withGens v).windows = s.windows := rfl
@[simp] theorem withGens_causes (s : State) (v : Tab Generator 2) : (s.withGens v).causes = s.causes := rfl
@[simp] theorem withGens_policies (s : State) (v : Tab Generator 2) : (s.withGens v).policies = s.policies := rfl
@[simp] theorem withGens_evq (s : State) (v : Tab Generator 2) : (s.withGens v).evq = s.evq := rfl
@[simp] theorem withGens_irq (s : State) (v : Tab Generator 2) : (s.withGens v).irq = s.irq := rfl
@[simp] theorem withGens_tp (s : State) (v : Tab Generator 2) : (s.withGens v).tp = s.tp := rfl
@[simp] theorem withGens_bus (s : State) (v : Tab Generator 2) : (s.withGens v).bus = s.bus := rfl
@[simp] theorem withGens_pending (s : State) (v : Tab Generator 2) : (s.withGens v).pending = s.pending := rfl
@[simp] theorem withGens_received (s : State) (v : Tab Generator 2) : (s.withGens v).received = s.received := rfl
@[simp] theorem withGens_incoming (s : State) (v : Tab Generator 2) : (s.withGens v).incoming = s.incoming := rfl

@[simp] theorem withStores_lines (s : State) (v : Tab Store 9) : (s.withStores v).lines = s.lines := rfl
@[simp] theorem withStores_enableRefused (s : State) (v : Tab Store 9) : (s.withStores v).enableRefused = s.enableRefused := rfl
@[simp] theorem withStores_gens (s : State) (v : Tab Store 9) : (s.withStores v).gens = s.gens := rfl
@[simp] theorem withStores_stores (s : State) (v : Tab Store 9) : (s.withStores v).stores = v := rfl
@[simp] theorem withStores_readers (s : State) (v : Tab Store 9) : (s.withStores v).readers = s.readers := rfl
@[simp] theorem withStores_bankA (s : State) (v : Tab Store 9) : (s.withStores v).bankA = s.bankA := rfl
@[simp] theorem withStores_bankB (s : State) (v : Tab Store 9) : (s.withStores v).bankB = s.bankB := rfl
@[simp] theorem withStores_bc (s : State) (v : Tab Store 9) : (s.withStores v).bc = s.bc := rfl
@[simp] theorem withStores_arb (s : State) (v : Tab Store 9) : (s.withStores v).arb = s.arb := rfl
@[simp] theorem withStores_txas (s : State) (v : Tab Store 9) : (s.withStores v).txas = s.txas := rfl
@[simp] theorem withStores_host (s : State) (v : Tab Store 9) : (s.withStores v).host = s.host := rfl
@[simp] theorem withStores_counters (s : State) (v : Tab Store 9) : (s.withStores v).counters = s.counters := rfl
@[simp] theorem withStores_windows (s : State) (v : Tab Store 9) : (s.withStores v).windows = s.windows := rfl
@[simp] theorem withStores_causes (s : State) (v : Tab Store 9) : (s.withStores v).causes = s.causes := rfl
@[simp] theorem withStores_policies (s : State) (v : Tab Store 9) : (s.withStores v).policies = s.policies := rfl
@[simp] theorem withStores_evq (s : State) (v : Tab Store 9) : (s.withStores v).evq = s.evq := rfl
@[simp] theorem withStores_irq (s : State) (v : Tab Store 9) : (s.withStores v).irq = s.irq := rfl
@[simp] theorem withStores_tp (s : State) (v : Tab Store 9) : (s.withStores v).tp = s.tp := rfl
@[simp] theorem withStores_bus (s : State) (v : Tab Store 9) : (s.withStores v).bus = s.bus := rfl
@[simp] theorem withStores_pending (s : State) (v : Tab Store 9) : (s.withStores v).pending = s.pending := rfl
@[simp] theorem withStores_received (s : State) (v : Tab Store 9) : (s.withStores v).received = s.received := rfl
@[simp] theorem withStores_incoming (s : State) (v : Tab Store 9) : (s.withStores v).incoming = s.incoming := rfl

@[simp] theorem withReaders_lines (s : State) (v : Tab (Tab Reader 9) 9) : (s.withReaders v).lines = s.lines := rfl
@[simp] theorem withReaders_enableRefused (s : State) (v : Tab (Tab Reader 9) 9) : (s.withReaders v).enableRefused = s.enableRefused := rfl
@[simp] theorem withReaders_gens (s : State) (v : Tab (Tab Reader 9) 9) : (s.withReaders v).gens = s.gens := rfl
@[simp] theorem withReaders_stores (s : State) (v : Tab (Tab Reader 9) 9) : (s.withReaders v).stores = s.stores := rfl
@[simp] theorem withReaders_readers (s : State) (v : Tab (Tab Reader 9) 9) : (s.withReaders v).readers = v := rfl
@[simp] theorem withReaders_bankA (s : State) (v : Tab (Tab Reader 9) 9) : (s.withReaders v).bankA = s.bankA := rfl
@[simp] theorem withReaders_bankB (s : State) (v : Tab (Tab Reader 9) 9) : (s.withReaders v).bankB = s.bankB := rfl
@[simp] theorem withReaders_bc (s : State) (v : Tab (Tab Reader 9) 9) : (s.withReaders v).bc = s.bc := rfl
@[simp] theorem withReaders_arb (s : State) (v : Tab (Tab Reader 9) 9) : (s.withReaders v).arb = s.arb := rfl
@[simp] theorem withReaders_txas (s : State) (v : Tab (Tab Reader 9) 9) : (s.withReaders v).txas = s.txas := rfl
@[simp] theorem withReaders_host (s : State) (v : Tab (Tab Reader 9) 9) : (s.withReaders v).host = s.host := rfl
@[simp] theorem withReaders_counters (s : State) (v : Tab (Tab Reader 9) 9) : (s.withReaders v).counters = s.counters := rfl
@[simp] theorem withReaders_windows (s : State) (v : Tab (Tab Reader 9) 9) : (s.withReaders v).windows = s.windows := rfl
@[simp] theorem withReaders_causes (s : State) (v : Tab (Tab Reader 9) 9) : (s.withReaders v).causes = s.causes := rfl
@[simp] theorem withReaders_policies (s : State) (v : Tab (Tab Reader 9) 9) : (s.withReaders v).policies = s.policies := rfl
@[simp] theorem withReaders_evq (s : State) (v : Tab (Tab Reader 9) 9) : (s.withReaders v).evq = s.evq := rfl
@[simp] theorem withReaders_irq (s : State) (v : Tab (Tab Reader 9) 9) : (s.withReaders v).irq = s.irq := rfl
@[simp] theorem withReaders_tp (s : State) (v : Tab (Tab Reader 9) 9) : (s.withReaders v).tp = s.tp := rfl
@[simp] theorem withReaders_bus (s : State) (v : Tab (Tab Reader 9) 9) : (s.withReaders v).bus = s.bus := rfl
@[simp] theorem withReaders_pending (s : State) (v : Tab (Tab Reader 9) 9) : (s.withReaders v).pending = s.pending := rfl
@[simp] theorem withReaders_received (s : State) (v : Tab (Tab Reader 9) 9) : (s.withReaders v).received = s.received := rfl
@[simp] theorem withReaders_incoming (s : State) (v : Tab (Tab Reader 9) 9) : (s.withReaders v).incoming = s.incoming := rfl

@[simp] theorem withBankA_lines (s : State) (v : Bank) : (s.withBankA v).lines = s.lines := rfl
@[simp] theorem withBankA_enableRefused (s : State) (v : Bank) : (s.withBankA v).enableRefused = s.enableRefused := rfl
@[simp] theorem withBankA_gens (s : State) (v : Bank) : (s.withBankA v).gens = s.gens := rfl
@[simp] theorem withBankA_stores (s : State) (v : Bank) : (s.withBankA v).stores = s.stores := rfl
@[simp] theorem withBankA_readers (s : State) (v : Bank) : (s.withBankA v).readers = s.readers := rfl
@[simp] theorem withBankA_bankA (s : State) (v : Bank) : (s.withBankA v).bankA = v := rfl
@[simp] theorem withBankA_bankB (s : State) (v : Bank) : (s.withBankA v).bankB = s.bankB := rfl
@[simp] theorem withBankA_bc (s : State) (v : Bank) : (s.withBankA v).bc = s.bc := rfl
@[simp] theorem withBankA_arb (s : State) (v : Bank) : (s.withBankA v).arb = s.arb := rfl
@[simp] theorem withBankA_txas (s : State) (v : Bank) : (s.withBankA v).txas = s.txas := rfl
@[simp] theorem withBankA_host (s : State) (v : Bank) : (s.withBankA v).host = s.host := rfl
@[simp] theorem withBankA_counters (s : State) (v : Bank) : (s.withBankA v).counters = s.counters := rfl
@[simp] theorem withBankA_windows (s : State) (v : Bank) : (s.withBankA v).windows = s.windows := rfl
@[simp] theorem withBankA_causes (s : State) (v : Bank) : (s.withBankA v).causes = s.causes := rfl
@[simp] theorem withBankA_policies (s : State) (v : Bank) : (s.withBankA v).policies = s.policies := rfl
@[simp] theorem withBankA_evq (s : State) (v : Bank) : (s.withBankA v).evq = s.evq := rfl
@[simp] theorem withBankA_irq (s : State) (v : Bank) : (s.withBankA v).irq = s.irq := rfl
@[simp] theorem withBankA_tp (s : State) (v : Bank) : (s.withBankA v).tp = s.tp := rfl
@[simp] theorem withBankA_bus (s : State) (v : Bank) : (s.withBankA v).bus = s.bus := rfl
@[simp] theorem withBankA_pending (s : State) (v : Bank) : (s.withBankA v).pending = s.pending := rfl
@[simp] theorem withBankA_received (s : State) (v : Bank) : (s.withBankA v).received = s.received := rfl
@[simp] theorem withBankA_incoming (s : State) (v : Bank) : (s.withBankA v).incoming = s.incoming := rfl

@[simp] theorem withBankB_lines (s : State) (v : Bank) : (s.withBankB v).lines = s.lines := rfl
@[simp] theorem withBankB_enableRefused (s : State) (v : Bank) : (s.withBankB v).enableRefused = s.enableRefused := rfl
@[simp] theorem withBankB_gens (s : State) (v : Bank) : (s.withBankB v).gens = s.gens := rfl
@[simp] theorem withBankB_stores (s : State) (v : Bank) : (s.withBankB v).stores = s.stores := rfl
@[simp] theorem withBankB_readers (s : State) (v : Bank) : (s.withBankB v).readers = s.readers := rfl
@[simp] theorem withBankB_bankA (s : State) (v : Bank) : (s.withBankB v).bankA = s.bankA := rfl
@[simp] theorem withBankB_bankB (s : State) (v : Bank) : (s.withBankB v).bankB = v := rfl
@[simp] theorem withBankB_bc (s : State) (v : Bank) : (s.withBankB v).bc = s.bc := rfl
@[simp] theorem withBankB_arb (s : State) (v : Bank) : (s.withBankB v).arb = s.arb := rfl
@[simp] theorem withBankB_txas (s : State) (v : Bank) : (s.withBankB v).txas = s.txas := rfl
@[simp] theorem withBankB_host (s : State) (v : Bank) : (s.withBankB v).host = s.host := rfl
@[simp] theorem withBankB_counters (s : State) (v : Bank) : (s.withBankB v).counters = s.counters := rfl
@[simp] theorem withBankB_windows (s : State) (v : Bank) : (s.withBankB v).windows = s.windows := rfl
@[simp] theorem withBankB_causes (s : State) (v : Bank) : (s.withBankB v).causes = s.causes := rfl
@[simp] theorem withBankB_policies (s : State) (v : Bank) : (s.withBankB v).policies = s.policies := rfl
@[simp] theorem withBankB_evq (s : State) (v : Bank) : (s.withBankB v).evq = s.evq := rfl
@[simp] theorem withBankB_irq (s : State) (v : Bank) : (s.withBankB v).irq = s.irq := rfl
@[simp] theorem withBankB_tp (s : State) (v : Bank) : (s.withBankB v).tp = s.tp := rfl
@[simp] theorem withBankB_bus (s : State) (v : Bank) : (s.withBankB v).bus = s.bus := rfl
@[simp] theorem withBankB_pending (s : State) (v : Bank) : (s.withBankB v).pending = s.pending := rfl
@[simp] theorem withBankB_received (s : State) (v : Bank) : (s.withBankB v).received = s.received := rfl
@[simp] theorem withBankB_incoming (s : State) (v : Bank) : (s.withBankB v).incoming = s.incoming := rfl

@[simp] theorem withBc_lines (s : State) (v : BankControl) : (s.withBc v).lines = s.lines := rfl
@[simp] theorem withBc_enableRefused (s : State) (v : BankControl) : (s.withBc v).enableRefused = s.enableRefused := rfl
@[simp] theorem withBc_gens (s : State) (v : BankControl) : (s.withBc v).gens = s.gens := rfl
@[simp] theorem withBc_stores (s : State) (v : BankControl) : (s.withBc v).stores = s.stores := rfl
@[simp] theorem withBc_readers (s : State) (v : BankControl) : (s.withBc v).readers = s.readers := rfl
@[simp] theorem withBc_bankA (s : State) (v : BankControl) : (s.withBc v).bankA = s.bankA := rfl
@[simp] theorem withBc_bankB (s : State) (v : BankControl) : (s.withBc v).bankB = s.bankB := rfl
@[simp] theorem withBc_bc (s : State) (v : BankControl) : (s.withBc v).bc = v := rfl
@[simp] theorem withBc_arb (s : State) (v : BankControl) : (s.withBc v).arb = s.arb := rfl
@[simp] theorem withBc_txas (s : State) (v : BankControl) : (s.withBc v).txas = s.txas := rfl
@[simp] theorem withBc_host (s : State) (v : BankControl) : (s.withBc v).host = s.host := rfl
@[simp] theorem withBc_counters (s : State) (v : BankControl) : (s.withBc v).counters = s.counters := rfl
@[simp] theorem withBc_windows (s : State) (v : BankControl) : (s.withBc v).windows = s.windows := rfl
@[simp] theorem withBc_causes (s : State) (v : BankControl) : (s.withBc v).causes = s.causes := rfl
@[simp] theorem withBc_policies (s : State) (v : BankControl) : (s.withBc v).policies = s.policies := rfl
@[simp] theorem withBc_evq (s : State) (v : BankControl) : (s.withBc v).evq = s.evq := rfl
@[simp] theorem withBc_irq (s : State) (v : BankControl) : (s.withBc v).irq = s.irq := rfl
@[simp] theorem withBc_tp (s : State) (v : BankControl) : (s.withBc v).tp = s.tp := rfl
@[simp] theorem withBc_bus (s : State) (v : BankControl) : (s.withBc v).bus = s.bus := rfl
@[simp] theorem withBc_pending (s : State) (v : BankControl) : (s.withBc v).pending = s.pending := rfl
@[simp] theorem withBc_received (s : State) (v : BankControl) : (s.withBc v).received = s.received := rfl
@[simp] theorem withBc_incoming (s : State) (v : BankControl) : (s.withBc v).incoming = s.incoming := rfl

@[simp] theorem withArb_lines (s : State) (v : Arbiter) : (s.withArb v).lines = s.lines := rfl
@[simp] theorem withArb_enableRefused (s : State) (v : Arbiter) : (s.withArb v).enableRefused = s.enableRefused := rfl
@[simp] theorem withArb_gens (s : State) (v : Arbiter) : (s.withArb v).gens = s.gens := rfl
@[simp] theorem withArb_stores (s : State) (v : Arbiter) : (s.withArb v).stores = s.stores := rfl
@[simp] theorem withArb_readers (s : State) (v : Arbiter) : (s.withArb v).readers = s.readers := rfl
@[simp] theorem withArb_bankA (s : State) (v : Arbiter) : (s.withArb v).bankA = s.bankA := rfl
@[simp] theorem withArb_bankB (s : State) (v : Arbiter) : (s.withArb v).bankB = s.bankB := rfl
@[simp] theorem withArb_bc (s : State) (v : Arbiter) : (s.withArb v).bc = s.bc := rfl
@[simp] theorem withArb_arb (s : State) (v : Arbiter) : (s.withArb v).arb = v := rfl
@[simp] theorem withArb_txas (s : State) (v : Arbiter) : (s.withArb v).txas = s.txas := rfl
@[simp] theorem withArb_host (s : State) (v : Arbiter) : (s.withArb v).host = s.host := rfl
@[simp] theorem withArb_counters (s : State) (v : Arbiter) : (s.withArb v).counters = s.counters := rfl
@[simp] theorem withArb_windows (s : State) (v : Arbiter) : (s.withArb v).windows = s.windows := rfl
@[simp] theorem withArb_causes (s : State) (v : Arbiter) : (s.withArb v).causes = s.causes := rfl
@[simp] theorem withArb_policies (s : State) (v : Arbiter) : (s.withArb v).policies = s.policies := rfl
@[simp] theorem withArb_evq (s : State) (v : Arbiter) : (s.withArb v).evq = s.evq := rfl
@[simp] theorem withArb_irq (s : State) (v : Arbiter) : (s.withArb v).irq = s.irq := rfl
@[simp] theorem withArb_tp (s : State) (v : Arbiter) : (s.withArb v).tp = s.tp := rfl
@[simp] theorem withArb_bus (s : State) (v : Arbiter) : (s.withArb v).bus = s.bus := rfl
@[simp] theorem withArb_pending (s : State) (v : Arbiter) : (s.withArb v).pending = s.pending := rfl
@[simp] theorem withArb_received (s : State) (v : Arbiter) : (s.withArb v).received = s.received := rfl
@[simp] theorem withArb_incoming (s : State) (v : Arbiter) : (s.withArb v).incoming = s.incoming := rfl

@[simp] theorem withTxas_lines (s : State) (v : Tab Assembler 9) : (s.withTxas v).lines = s.lines := rfl
@[simp] theorem withTxas_enableRefused (s : State) (v : Tab Assembler 9) : (s.withTxas v).enableRefused = s.enableRefused := rfl
@[simp] theorem withTxas_gens (s : State) (v : Tab Assembler 9) : (s.withTxas v).gens = s.gens := rfl
@[simp] theorem withTxas_stores (s : State) (v : Tab Assembler 9) : (s.withTxas v).stores = s.stores := rfl
@[simp] theorem withTxas_readers (s : State) (v : Tab Assembler 9) : (s.withTxas v).readers = s.readers := rfl
@[simp] theorem withTxas_bankA (s : State) (v : Tab Assembler 9) : (s.withTxas v).bankA = s.bankA := rfl
@[simp] theorem withTxas_bankB (s : State) (v : Tab Assembler 9) : (s.withTxas v).bankB = s.bankB := rfl
@[simp] theorem withTxas_bc (s : State) (v : Tab Assembler 9) : (s.withTxas v).bc = s.bc := rfl
@[simp] theorem withTxas_arb (s : State) (v : Tab Assembler 9) : (s.withTxas v).arb = s.arb := rfl
@[simp] theorem withTxas_txas (s : State) (v : Tab Assembler 9) : (s.withTxas v).txas = v := rfl
@[simp] theorem withTxas_host (s : State) (v : Tab Assembler 9) : (s.withTxas v).host = s.host := rfl
@[simp] theorem withTxas_counters (s : State) (v : Tab Assembler 9) : (s.withTxas v).counters = s.counters := rfl
@[simp] theorem withTxas_windows (s : State) (v : Tab Assembler 9) : (s.withTxas v).windows = s.windows := rfl
@[simp] theorem withTxas_causes (s : State) (v : Tab Assembler 9) : (s.withTxas v).causes = s.causes := rfl
@[simp] theorem withTxas_policies (s : State) (v : Tab Assembler 9) : (s.withTxas v).policies = s.policies := rfl
@[simp] theorem withTxas_evq (s : State) (v : Tab Assembler 9) : (s.withTxas v).evq = s.evq := rfl
@[simp] theorem withTxas_irq (s : State) (v : Tab Assembler 9) : (s.withTxas v).irq = s.irq := rfl
@[simp] theorem withTxas_tp (s : State) (v : Tab Assembler 9) : (s.withTxas v).tp = s.tp := rfl
@[simp] theorem withTxas_bus (s : State) (v : Tab Assembler 9) : (s.withTxas v).bus = s.bus := rfl
@[simp] theorem withTxas_pending (s : State) (v : Tab Assembler 9) : (s.withTxas v).pending = s.pending := rfl
@[simp] theorem withTxas_received (s : State) (v : Tab Assembler 9) : (s.withTxas v).received = s.received := rfl
@[simp] theorem withTxas_incoming (s : State) (v : Tab Assembler 9) : (s.withTxas v).incoming = s.incoming := rfl

@[simp] theorem withHost_lines (s : State) (v : HostBlock) : (s.withHost v).lines = s.lines := rfl
@[simp] theorem withHost_enableRefused (s : State) (v : HostBlock) : (s.withHost v).enableRefused = s.enableRefused := rfl
@[simp] theorem withHost_gens (s : State) (v : HostBlock) : (s.withHost v).gens = s.gens := rfl
@[simp] theorem withHost_stores (s : State) (v : HostBlock) : (s.withHost v).stores = s.stores := rfl
@[simp] theorem withHost_readers (s : State) (v : HostBlock) : (s.withHost v).readers = s.readers := rfl
@[simp] theorem withHost_bankA (s : State) (v : HostBlock) : (s.withHost v).bankA = s.bankA := rfl
@[simp] theorem withHost_bankB (s : State) (v : HostBlock) : (s.withHost v).bankB = s.bankB := rfl
@[simp] theorem withHost_bc (s : State) (v : HostBlock) : (s.withHost v).bc = s.bc := rfl
@[simp] theorem withHost_arb (s : State) (v : HostBlock) : (s.withHost v).arb = s.arb := rfl
@[simp] theorem withHost_txas (s : State) (v : HostBlock) : (s.withHost v).txas = s.txas := rfl
@[simp] theorem withHost_host (s : State) (v : HostBlock) : (s.withHost v).host = v := rfl
@[simp] theorem withHost_counters (s : State) (v : HostBlock) : (s.withHost v).counters = s.counters := rfl
@[simp] theorem withHost_windows (s : State) (v : HostBlock) : (s.withHost v).windows = s.windows := rfl
@[simp] theorem withHost_causes (s : State) (v : HostBlock) : (s.withHost v).causes = s.causes := rfl
@[simp] theorem withHost_policies (s : State) (v : HostBlock) : (s.withHost v).policies = s.policies := rfl
@[simp] theorem withHost_evq (s : State) (v : HostBlock) : (s.withHost v).evq = s.evq := rfl
@[simp] theorem withHost_irq (s : State) (v : HostBlock) : (s.withHost v).irq = s.irq := rfl
@[simp] theorem withHost_tp (s : State) (v : HostBlock) : (s.withHost v).tp = s.tp := rfl
@[simp] theorem withHost_bus (s : State) (v : HostBlock) : (s.withHost v).bus = s.bus := rfl
@[simp] theorem withHost_pending (s : State) (v : HostBlock) : (s.withHost v).pending = s.pending := rfl
@[simp] theorem withHost_received (s : State) (v : HostBlock) : (s.withHost v).received = s.received := rfl
@[simp] theorem withHost_incoming (s : State) (v : HostBlock) : (s.withHost v).incoming = s.incoming := rfl

@[simp] theorem withCounters_lines (s : State) (v : Tab (Tab Word 8) 9) : (s.withCounters v).lines = s.lines := rfl
@[simp] theorem withCounters_enableRefused (s : State) (v : Tab (Tab Word 8) 9) : (s.withCounters v).enableRefused = s.enableRefused := rfl
@[simp] theorem withCounters_gens (s : State) (v : Tab (Tab Word 8) 9) : (s.withCounters v).gens = s.gens := rfl
@[simp] theorem withCounters_stores (s : State) (v : Tab (Tab Word 8) 9) : (s.withCounters v).stores = s.stores := rfl
@[simp] theorem withCounters_readers (s : State) (v : Tab (Tab Word 8) 9) : (s.withCounters v).readers = s.readers := rfl
@[simp] theorem withCounters_bankA (s : State) (v : Tab (Tab Word 8) 9) : (s.withCounters v).bankA = s.bankA := rfl
@[simp] theorem withCounters_bankB (s : State) (v : Tab (Tab Word 8) 9) : (s.withCounters v).bankB = s.bankB := rfl
@[simp] theorem withCounters_bc (s : State) (v : Tab (Tab Word 8) 9) : (s.withCounters v).bc = s.bc := rfl
@[simp] theorem withCounters_arb (s : State) (v : Tab (Tab Word 8) 9) : (s.withCounters v).arb = s.arb := rfl
@[simp] theorem withCounters_txas (s : State) (v : Tab (Tab Word 8) 9) : (s.withCounters v).txas = s.txas := rfl
@[simp] theorem withCounters_host (s : State) (v : Tab (Tab Word 8) 9) : (s.withCounters v).host = s.host := rfl
@[simp] theorem withCounters_counters (s : State) (v : Tab (Tab Word 8) 9) : (s.withCounters v).counters = v := rfl
@[simp] theorem withCounters_windows (s : State) (v : Tab (Tab Word 8) 9) : (s.withCounters v).windows = s.windows := rfl
@[simp] theorem withCounters_causes (s : State) (v : Tab (Tab Word 8) 9) : (s.withCounters v).causes = s.causes := rfl
@[simp] theorem withCounters_policies (s : State) (v : Tab (Tab Word 8) 9) : (s.withCounters v).policies = s.policies := rfl
@[simp] theorem withCounters_evq (s : State) (v : Tab (Tab Word 8) 9) : (s.withCounters v).evq = s.evq := rfl
@[simp] theorem withCounters_irq (s : State) (v : Tab (Tab Word 8) 9) : (s.withCounters v).irq = s.irq := rfl
@[simp] theorem withCounters_tp (s : State) (v : Tab (Tab Word 8) 9) : (s.withCounters v).tp = s.tp := rfl
@[simp] theorem withCounters_bus (s : State) (v : Tab (Tab Word 8) 9) : (s.withCounters v).bus = s.bus := rfl
@[simp] theorem withCounters_pending (s : State) (v : Tab (Tab Word 8) 9) : (s.withCounters v).pending = s.pending := rfl
@[simp] theorem withCounters_received (s : State) (v : Tab (Tab Word 8) 9) : (s.withCounters v).received = s.received := rfl
@[simp] theorem withCounters_incoming (s : State) (v : Tab (Tab Word 8) 9) : (s.withCounters v).incoming = s.incoming := rfl

@[simp] theorem withWindows_lines (s : State) (v : Tab Window 9) : (s.withWindows v).lines = s.lines := rfl
@[simp] theorem withWindows_enableRefused (s : State) (v : Tab Window 9) : (s.withWindows v).enableRefused = s.enableRefused := rfl
@[simp] theorem withWindows_gens (s : State) (v : Tab Window 9) : (s.withWindows v).gens = s.gens := rfl
@[simp] theorem withWindows_stores (s : State) (v : Tab Window 9) : (s.withWindows v).stores = s.stores := rfl
@[simp] theorem withWindows_readers (s : State) (v : Tab Window 9) : (s.withWindows v).readers = s.readers := rfl
@[simp] theorem withWindows_bankA (s : State) (v : Tab Window 9) : (s.withWindows v).bankA = s.bankA := rfl
@[simp] theorem withWindows_bankB (s : State) (v : Tab Window 9) : (s.withWindows v).bankB = s.bankB := rfl
@[simp] theorem withWindows_bc (s : State) (v : Tab Window 9) : (s.withWindows v).bc = s.bc := rfl
@[simp] theorem withWindows_arb (s : State) (v : Tab Window 9) : (s.withWindows v).arb = s.arb := rfl
@[simp] theorem withWindows_txas (s : State) (v : Tab Window 9) : (s.withWindows v).txas = s.txas := rfl
@[simp] theorem withWindows_host (s : State) (v : Tab Window 9) : (s.withWindows v).host = s.host := rfl
@[simp] theorem withWindows_counters (s : State) (v : Tab Window 9) : (s.withWindows v).counters = s.counters := rfl
@[simp] theorem withWindows_windows (s : State) (v : Tab Window 9) : (s.withWindows v).windows = v := rfl
@[simp] theorem withWindows_causes (s : State) (v : Tab Window 9) : (s.withWindows v).causes = s.causes := rfl
@[simp] theorem withWindows_policies (s : State) (v : Tab Window 9) : (s.withWindows v).policies = s.policies := rfl
@[simp] theorem withWindows_evq (s : State) (v : Tab Window 9) : (s.withWindows v).evq = s.evq := rfl
@[simp] theorem withWindows_irq (s : State) (v : Tab Window 9) : (s.withWindows v).irq = s.irq := rfl
@[simp] theorem withWindows_tp (s : State) (v : Tab Window 9) : (s.withWindows v).tp = s.tp := rfl
@[simp] theorem withWindows_bus (s : State) (v : Tab Window 9) : (s.withWindows v).bus = s.bus := rfl
@[simp] theorem withWindows_pending (s : State) (v : Tab Window 9) : (s.withWindows v).pending = s.pending := rfl
@[simp] theorem withWindows_received (s : State) (v : Tab Window 9) : (s.withWindows v).received = s.received := rfl
@[simp] theorem withWindows_incoming (s : State) (v : Tab Window 9) : (s.withWindows v).incoming = s.incoming := rfl

@[simp] theorem withCauses_lines (s : State) (v : Tab CauseSet 9) : (s.withCauses v).lines = s.lines := rfl
@[simp] theorem withCauses_enableRefused (s : State) (v : Tab CauseSet 9) : (s.withCauses v).enableRefused = s.enableRefused := rfl
@[simp] theorem withCauses_gens (s : State) (v : Tab CauseSet 9) : (s.withCauses v).gens = s.gens := rfl
@[simp] theorem withCauses_stores (s : State) (v : Tab CauseSet 9) : (s.withCauses v).stores = s.stores := rfl
@[simp] theorem withCauses_readers (s : State) (v : Tab CauseSet 9) : (s.withCauses v).readers = s.readers := rfl
@[simp] theorem withCauses_bankA (s : State) (v : Tab CauseSet 9) : (s.withCauses v).bankA = s.bankA := rfl
@[simp] theorem withCauses_bankB (s : State) (v : Tab CauseSet 9) : (s.withCauses v).bankB = s.bankB := rfl
@[simp] theorem withCauses_bc (s : State) (v : Tab CauseSet 9) : (s.withCauses v).bc = s.bc := rfl
@[simp] theorem withCauses_arb (s : State) (v : Tab CauseSet 9) : (s.withCauses v).arb = s.arb := rfl
@[simp] theorem withCauses_txas (s : State) (v : Tab CauseSet 9) : (s.withCauses v).txas = s.txas := rfl
@[simp] theorem withCauses_host (s : State) (v : Tab CauseSet 9) : (s.withCauses v).host = s.host := rfl
@[simp] theorem withCauses_counters (s : State) (v : Tab CauseSet 9) : (s.withCauses v).counters = s.counters := rfl
@[simp] theorem withCauses_windows (s : State) (v : Tab CauseSet 9) : (s.withCauses v).windows = s.windows := rfl
@[simp] theorem withCauses_causes (s : State) (v : Tab CauseSet 9) : (s.withCauses v).causes = v := rfl
@[simp] theorem withCauses_policies (s : State) (v : Tab CauseSet 9) : (s.withCauses v).policies = s.policies := rfl
@[simp] theorem withCauses_evq (s : State) (v : Tab CauseSet 9) : (s.withCauses v).evq = s.evq := rfl
@[simp] theorem withCauses_irq (s : State) (v : Tab CauseSet 9) : (s.withCauses v).irq = s.irq := rfl
@[simp] theorem withCauses_tp (s : State) (v : Tab CauseSet 9) : (s.withCauses v).tp = s.tp := rfl
@[simp] theorem withCauses_bus (s : State) (v : Tab CauseSet 9) : (s.withCauses v).bus = s.bus := rfl
@[simp] theorem withCauses_pending (s : State) (v : Tab CauseSet 9) : (s.withCauses v).pending = s.pending := rfl
@[simp] theorem withCauses_received (s : State) (v : Tab CauseSet 9) : (s.withCauses v).received = s.received := rfl
@[simp] theorem withCauses_incoming (s : State) (v : Tab CauseSet 9) : (s.withCauses v).incoming = s.incoming := rfl

@[simp] theorem withPolicies_lines (s : State) (v : Tab Policy 4) : (s.withPolicies v).lines = s.lines := rfl
@[simp] theorem withPolicies_enableRefused (s : State) (v : Tab Policy 4) : (s.withPolicies v).enableRefused = s.enableRefused := rfl
@[simp] theorem withPolicies_gens (s : State) (v : Tab Policy 4) : (s.withPolicies v).gens = s.gens := rfl
@[simp] theorem withPolicies_stores (s : State) (v : Tab Policy 4) : (s.withPolicies v).stores = s.stores := rfl
@[simp] theorem withPolicies_readers (s : State) (v : Tab Policy 4) : (s.withPolicies v).readers = s.readers := rfl
@[simp] theorem withPolicies_bankA (s : State) (v : Tab Policy 4) : (s.withPolicies v).bankA = s.bankA := rfl
@[simp] theorem withPolicies_bankB (s : State) (v : Tab Policy 4) : (s.withPolicies v).bankB = s.bankB := rfl
@[simp] theorem withPolicies_bc (s : State) (v : Tab Policy 4) : (s.withPolicies v).bc = s.bc := rfl
@[simp] theorem withPolicies_arb (s : State) (v : Tab Policy 4) : (s.withPolicies v).arb = s.arb := rfl
@[simp] theorem withPolicies_txas (s : State) (v : Tab Policy 4) : (s.withPolicies v).txas = s.txas := rfl
@[simp] theorem withPolicies_host (s : State) (v : Tab Policy 4) : (s.withPolicies v).host = s.host := rfl
@[simp] theorem withPolicies_counters (s : State) (v : Tab Policy 4) : (s.withPolicies v).counters = s.counters := rfl
@[simp] theorem withPolicies_windows (s : State) (v : Tab Policy 4) : (s.withPolicies v).windows = s.windows := rfl
@[simp] theorem withPolicies_causes (s : State) (v : Tab Policy 4) : (s.withPolicies v).causes = s.causes := rfl
@[simp] theorem withPolicies_policies (s : State) (v : Tab Policy 4) : (s.withPolicies v).policies = v := rfl
@[simp] theorem withPolicies_evq (s : State) (v : Tab Policy 4) : (s.withPolicies v).evq = s.evq := rfl
@[simp] theorem withPolicies_irq (s : State) (v : Tab Policy 4) : (s.withPolicies v).irq = s.irq := rfl
@[simp] theorem withPolicies_tp (s : State) (v : Tab Policy 4) : (s.withPolicies v).tp = s.tp := rfl
@[simp] theorem withPolicies_bus (s : State) (v : Tab Policy 4) : (s.withPolicies v).bus = s.bus := rfl
@[simp] theorem withPolicies_pending (s : State) (v : Tab Policy 4) : (s.withPolicies v).pending = s.pending := rfl
@[simp] theorem withPolicies_received (s : State) (v : Tab Policy 4) : (s.withPolicies v).received = s.received := rfl
@[simp] theorem withPolicies_incoming (s : State) (v : Tab Policy 4) : (s.withPolicies v).incoming = s.incoming := rfl

@[simp] theorem withEvq_lines (s : State) (v : EventQueue) : (s.withEvq v).lines = s.lines := rfl
@[simp] theorem withEvq_enableRefused (s : State) (v : EventQueue) : (s.withEvq v).enableRefused = s.enableRefused := rfl
@[simp] theorem withEvq_gens (s : State) (v : EventQueue) : (s.withEvq v).gens = s.gens := rfl
@[simp] theorem withEvq_stores (s : State) (v : EventQueue) : (s.withEvq v).stores = s.stores := rfl
@[simp] theorem withEvq_readers (s : State) (v : EventQueue) : (s.withEvq v).readers = s.readers := rfl
@[simp] theorem withEvq_bankA (s : State) (v : EventQueue) : (s.withEvq v).bankA = s.bankA := rfl
@[simp] theorem withEvq_bankB (s : State) (v : EventQueue) : (s.withEvq v).bankB = s.bankB := rfl
@[simp] theorem withEvq_bc (s : State) (v : EventQueue) : (s.withEvq v).bc = s.bc := rfl
@[simp] theorem withEvq_arb (s : State) (v : EventQueue) : (s.withEvq v).arb = s.arb := rfl
@[simp] theorem withEvq_txas (s : State) (v : EventQueue) : (s.withEvq v).txas = s.txas := rfl
@[simp] theorem withEvq_host (s : State) (v : EventQueue) : (s.withEvq v).host = s.host := rfl
@[simp] theorem withEvq_counters (s : State) (v : EventQueue) : (s.withEvq v).counters = s.counters := rfl
@[simp] theorem withEvq_windows (s : State) (v : EventQueue) : (s.withEvq v).windows = s.windows := rfl
@[simp] theorem withEvq_causes (s : State) (v : EventQueue) : (s.withEvq v).causes = s.causes := rfl
@[simp] theorem withEvq_policies (s : State) (v : EventQueue) : (s.withEvq v).policies = s.policies := rfl
@[simp] theorem withEvq_evq (s : State) (v : EventQueue) : (s.withEvq v).evq = v := rfl
@[simp] theorem withEvq_irq (s : State) (v : EventQueue) : (s.withEvq v).irq = s.irq := rfl
@[simp] theorem withEvq_tp (s : State) (v : EventQueue) : (s.withEvq v).tp = s.tp := rfl
@[simp] theorem withEvq_bus (s : State) (v : EventQueue) : (s.withEvq v).bus = s.bus := rfl
@[simp] theorem withEvq_pending (s : State) (v : EventQueue) : (s.withEvq v).pending = s.pending := rfl
@[simp] theorem withEvq_received (s : State) (v : EventQueue) : (s.withEvq v).received = s.received := rfl
@[simp] theorem withEvq_incoming (s : State) (v : EventQueue) : (s.withEvq v).incoming = s.incoming := rfl

@[simp] theorem withIrq_lines (s : State) (v : Irq) : (s.withIrq v).lines = s.lines := rfl
@[simp] theorem withIrq_enableRefused (s : State) (v : Irq) : (s.withIrq v).enableRefused = s.enableRefused := rfl
@[simp] theorem withIrq_gens (s : State) (v : Irq) : (s.withIrq v).gens = s.gens := rfl
@[simp] theorem withIrq_stores (s : State) (v : Irq) : (s.withIrq v).stores = s.stores := rfl
@[simp] theorem withIrq_readers (s : State) (v : Irq) : (s.withIrq v).readers = s.readers := rfl
@[simp] theorem withIrq_bankA (s : State) (v : Irq) : (s.withIrq v).bankA = s.bankA := rfl
@[simp] theorem withIrq_bankB (s : State) (v : Irq) : (s.withIrq v).bankB = s.bankB := rfl
@[simp] theorem withIrq_bc (s : State) (v : Irq) : (s.withIrq v).bc = s.bc := rfl
@[simp] theorem withIrq_arb (s : State) (v : Irq) : (s.withIrq v).arb = s.arb := rfl
@[simp] theorem withIrq_txas (s : State) (v : Irq) : (s.withIrq v).txas = s.txas := rfl
@[simp] theorem withIrq_host (s : State) (v : Irq) : (s.withIrq v).host = s.host := rfl
@[simp] theorem withIrq_counters (s : State) (v : Irq) : (s.withIrq v).counters = s.counters := rfl
@[simp] theorem withIrq_windows (s : State) (v : Irq) : (s.withIrq v).windows = s.windows := rfl
@[simp] theorem withIrq_causes (s : State) (v : Irq) : (s.withIrq v).causes = s.causes := rfl
@[simp] theorem withIrq_policies (s : State) (v : Irq) : (s.withIrq v).policies = s.policies := rfl
@[simp] theorem withIrq_evq (s : State) (v : Irq) : (s.withIrq v).evq = s.evq := rfl
@[simp] theorem withIrq_irq (s : State) (v : Irq) : (s.withIrq v).irq = v := rfl
@[simp] theorem withIrq_tp (s : State) (v : Irq) : (s.withIrq v).tp = s.tp := rfl
@[simp] theorem withIrq_bus (s : State) (v : Irq) : (s.withIrq v).bus = s.bus := rfl
@[simp] theorem withIrq_pending (s : State) (v : Irq) : (s.withIrq v).pending = s.pending := rfl
@[simp] theorem withIrq_received (s : State) (v : Irq) : (s.withIrq v).received = s.received := rfl
@[simp] theorem withIrq_incoming (s : State) (v : Irq) : (s.withIrq v).incoming = s.incoming := rfl

@[simp] theorem withTp_lines (s : State) (v : TablePort) : (s.withTp v).lines = s.lines := rfl
@[simp] theorem withTp_enableRefused (s : State) (v : TablePort) : (s.withTp v).enableRefused = s.enableRefused := rfl
@[simp] theorem withTp_gens (s : State) (v : TablePort) : (s.withTp v).gens = s.gens := rfl
@[simp] theorem withTp_stores (s : State) (v : TablePort) : (s.withTp v).stores = s.stores := rfl
@[simp] theorem withTp_readers (s : State) (v : TablePort) : (s.withTp v).readers = s.readers := rfl
@[simp] theorem withTp_bankA (s : State) (v : TablePort) : (s.withTp v).bankA = s.bankA := rfl
@[simp] theorem withTp_bankB (s : State) (v : TablePort) : (s.withTp v).bankB = s.bankB := rfl
@[simp] theorem withTp_bc (s : State) (v : TablePort) : (s.withTp v).bc = s.bc := rfl
@[simp] theorem withTp_arb (s : State) (v : TablePort) : (s.withTp v).arb = s.arb := rfl
@[simp] theorem withTp_txas (s : State) (v : TablePort) : (s.withTp v).txas = s.txas := rfl
@[simp] theorem withTp_host (s : State) (v : TablePort) : (s.withTp v).host = s.host := rfl
@[simp] theorem withTp_counters (s : State) (v : TablePort) : (s.withTp v).counters = s.counters := rfl
@[simp] theorem withTp_windows (s : State) (v : TablePort) : (s.withTp v).windows = s.windows := rfl
@[simp] theorem withTp_causes (s : State) (v : TablePort) : (s.withTp v).causes = s.causes := rfl
@[simp] theorem withTp_policies (s : State) (v : TablePort) : (s.withTp v).policies = s.policies := rfl
@[simp] theorem withTp_evq (s : State) (v : TablePort) : (s.withTp v).evq = s.evq := rfl
@[simp] theorem withTp_irq (s : State) (v : TablePort) : (s.withTp v).irq = s.irq := rfl
@[simp] theorem withTp_tp (s : State) (v : TablePort) : (s.withTp v).tp = v := rfl
@[simp] theorem withTp_bus (s : State) (v : TablePort) : (s.withTp v).bus = s.bus := rfl
@[simp] theorem withTp_pending (s : State) (v : TablePort) : (s.withTp v).pending = s.pending := rfl
@[simp] theorem withTp_received (s : State) (v : TablePort) : (s.withTp v).received = s.received := rfl
@[simp] theorem withTp_incoming (s : State) (v : TablePort) : (s.withTp v).incoming = s.incoming := rfl

@[simp] theorem withBus_lines (s : State) (v : HostBus) : (s.withBus v).lines = s.lines := rfl
@[simp] theorem withBus_enableRefused (s : State) (v : HostBus) : (s.withBus v).enableRefused = s.enableRefused := rfl
@[simp] theorem withBus_gens (s : State) (v : HostBus) : (s.withBus v).gens = s.gens := rfl
@[simp] theorem withBus_stores (s : State) (v : HostBus) : (s.withBus v).stores = s.stores := rfl
@[simp] theorem withBus_readers (s : State) (v : HostBus) : (s.withBus v).readers = s.readers := rfl
@[simp] theorem withBus_bankA (s : State) (v : HostBus) : (s.withBus v).bankA = s.bankA := rfl
@[simp] theorem withBus_bankB (s : State) (v : HostBus) : (s.withBus v).bankB = s.bankB := rfl
@[simp] theorem withBus_bc (s : State) (v : HostBus) : (s.withBus v).bc = s.bc := rfl
@[simp] theorem withBus_arb (s : State) (v : HostBus) : (s.withBus v).arb = s.arb := rfl
@[simp] theorem withBus_txas (s : State) (v : HostBus) : (s.withBus v).txas = s.txas := rfl
@[simp] theorem withBus_host (s : State) (v : HostBus) : (s.withBus v).host = s.host := rfl
@[simp] theorem withBus_counters (s : State) (v : HostBus) : (s.withBus v).counters = s.counters := rfl
@[simp] theorem withBus_windows (s : State) (v : HostBus) : (s.withBus v).windows = s.windows := rfl
@[simp] theorem withBus_causes (s : State) (v : HostBus) : (s.withBus v).causes = s.causes := rfl
@[simp] theorem withBus_policies (s : State) (v : HostBus) : (s.withBus v).policies = s.policies := rfl
@[simp] theorem withBus_evq (s : State) (v : HostBus) : (s.withBus v).evq = s.evq := rfl
@[simp] theorem withBus_irq (s : State) (v : HostBus) : (s.withBus v).irq = s.irq := rfl
@[simp] theorem withBus_tp (s : State) (v : HostBus) : (s.withBus v).tp = s.tp := rfl
@[simp] theorem withBus_bus (s : State) (v : HostBus) : (s.withBus v).bus = v := rfl
@[simp] theorem withBus_pending (s : State) (v : HostBus) : (s.withBus v).pending = s.pending := rfl
@[simp] theorem withBus_received (s : State) (v : HostBus) : (s.withBus v).received = s.received := rfl
@[simp] theorem withBus_incoming (s : State) (v : HostBus) : (s.withBus v).incoming = s.incoming := rfl

@[simp] theorem withPending_lines (s : State) (v : List Instr) : (s.withPending v).lines = s.lines := rfl
@[simp] theorem withPending_enableRefused (s : State) (v : List Instr) : (s.withPending v).enableRefused = s.enableRefused := rfl
@[simp] theorem withPending_gens (s : State) (v : List Instr) : (s.withPending v).gens = s.gens := rfl
@[simp] theorem withPending_stores (s : State) (v : List Instr) : (s.withPending v).stores = s.stores := rfl
@[simp] theorem withPending_readers (s : State) (v : List Instr) : (s.withPending v).readers = s.readers := rfl
@[simp] theorem withPending_bankA (s : State) (v : List Instr) : (s.withPending v).bankA = s.bankA := rfl
@[simp] theorem withPending_bankB (s : State) (v : List Instr) : (s.withPending v).bankB = s.bankB := rfl
@[simp] theorem withPending_bc (s : State) (v : List Instr) : (s.withPending v).bc = s.bc := rfl
@[simp] theorem withPending_arb (s : State) (v : List Instr) : (s.withPending v).arb = s.arb := rfl
@[simp] theorem withPending_txas (s : State) (v : List Instr) : (s.withPending v).txas = s.txas := rfl
@[simp] theorem withPending_host (s : State) (v : List Instr) : (s.withPending v).host = s.host := rfl
@[simp] theorem withPending_counters (s : State) (v : List Instr) : (s.withPending v).counters = s.counters := rfl
@[simp] theorem withPending_windows (s : State) (v : List Instr) : (s.withPending v).windows = s.windows := rfl
@[simp] theorem withPending_causes (s : State) (v : List Instr) : (s.withPending v).causes = s.causes := rfl
@[simp] theorem withPending_policies (s : State) (v : List Instr) : (s.withPending v).policies = s.policies := rfl
@[simp] theorem withPending_evq (s : State) (v : List Instr) : (s.withPending v).evq = s.evq := rfl
@[simp] theorem withPending_irq (s : State) (v : List Instr) : (s.withPending v).irq = s.irq := rfl
@[simp] theorem withPending_tp (s : State) (v : List Instr) : (s.withPending v).tp = s.tp := rfl
@[simp] theorem withPending_bus (s : State) (v : List Instr) : (s.withPending v).bus = s.bus := rfl
@[simp] theorem withPending_pending (s : State) (v : List Instr) : (s.withPending v).pending = v := rfl
@[simp] theorem withPending_received (s : State) (v : List Instr) : (s.withPending v).received = s.received := rfl
@[simp] theorem withPending_incoming (s : State) (v : List Instr) : (s.withPending v).incoming = s.incoming := rfl

@[simp] theorem withReceived_lines (s : State) (v : Tab (List Bool) 9) : (s.withReceived v).lines = s.lines := rfl
@[simp] theorem withReceived_enableRefused (s : State) (v : Tab (List Bool) 9) : (s.withReceived v).enableRefused = s.enableRefused := rfl
@[simp] theorem withReceived_gens (s : State) (v : Tab (List Bool) 9) : (s.withReceived v).gens = s.gens := rfl
@[simp] theorem withReceived_stores (s : State) (v : Tab (List Bool) 9) : (s.withReceived v).stores = s.stores := rfl
@[simp] theorem withReceived_readers (s : State) (v : Tab (List Bool) 9) : (s.withReceived v).readers = s.readers := rfl
@[simp] theorem withReceived_bankA (s : State) (v : Tab (List Bool) 9) : (s.withReceived v).bankA = s.bankA := rfl
@[simp] theorem withReceived_bankB (s : State) (v : Tab (List Bool) 9) : (s.withReceived v).bankB = s.bankB := rfl
@[simp] theorem withReceived_bc (s : State) (v : Tab (List Bool) 9) : (s.withReceived v).bc = s.bc := rfl
@[simp] theorem withReceived_arb (s : State) (v : Tab (List Bool) 9) : (s.withReceived v).arb = s.arb := rfl
@[simp] theorem withReceived_txas (s : State) (v : Tab (List Bool) 9) : (s.withReceived v).txas = s.txas := rfl
@[simp] theorem withReceived_host (s : State) (v : Tab (List Bool) 9) : (s.withReceived v).host = s.host := rfl
@[simp] theorem withReceived_counters (s : State) (v : Tab (List Bool) 9) : (s.withReceived v).counters = s.counters := rfl
@[simp] theorem withReceived_windows (s : State) (v : Tab (List Bool) 9) : (s.withReceived v).windows = s.windows := rfl
@[simp] theorem withReceived_causes (s : State) (v : Tab (List Bool) 9) : (s.withReceived v).causes = s.causes := rfl
@[simp] theorem withReceived_policies (s : State) (v : Tab (List Bool) 9) : (s.withReceived v).policies = s.policies := rfl
@[simp] theorem withReceived_evq (s : State) (v : Tab (List Bool) 9) : (s.withReceived v).evq = s.evq := rfl
@[simp] theorem withReceived_irq (s : State) (v : Tab (List Bool) 9) : (s.withReceived v).irq = s.irq := rfl
@[simp] theorem withReceived_tp (s : State) (v : Tab (List Bool) 9) : (s.withReceived v).tp = s.tp := rfl
@[simp] theorem withReceived_bus (s : State) (v : Tab (List Bool) 9) : (s.withReceived v).bus = s.bus := rfl
@[simp] theorem withReceived_pending (s : State) (v : Tab (List Bool) 9) : (s.withReceived v).pending = s.pending := rfl
@[simp] theorem withReceived_received (s : State) (v : Tab (List Bool) 9) : (s.withReceived v).received = v := rfl
@[simp] theorem withReceived_incoming (s : State) (v : Tab (List Bool) 9) : (s.withReceived v).incoming = s.incoming := rfl

@[simp] theorem withIncoming_lines (s : State) (v : List (PhysLine × Bool)) : (s.withIncoming v).lines = s.lines := rfl
@[simp] theorem withIncoming_enableRefused (s : State) (v : List (PhysLine × Bool)) : (s.withIncoming v).enableRefused = s.enableRefused := rfl
@[simp] theorem withIncoming_gens (s : State) (v : List (PhysLine × Bool)) : (s.withIncoming v).gens = s.gens := rfl
@[simp] theorem withIncoming_stores (s : State) (v : List (PhysLine × Bool)) : (s.withIncoming v).stores = s.stores := rfl
@[simp] theorem withIncoming_readers (s : State) (v : List (PhysLine × Bool)) : (s.withIncoming v).readers = s.readers := rfl
@[simp] theorem withIncoming_bankA (s : State) (v : List (PhysLine × Bool)) : (s.withIncoming v).bankA = s.bankA := rfl
@[simp] theorem withIncoming_bankB (s : State) (v : List (PhysLine × Bool)) : (s.withIncoming v).bankB = s.bankB := rfl
@[simp] theorem withIncoming_bc (s : State) (v : List (PhysLine × Bool)) : (s.withIncoming v).bc = s.bc := rfl
@[simp] theorem withIncoming_arb (s : State) (v : List (PhysLine × Bool)) : (s.withIncoming v).arb = s.arb := rfl
@[simp] theorem withIncoming_txas (s : State) (v : List (PhysLine × Bool)) : (s.withIncoming v).txas = s.txas := rfl
@[simp] theorem withIncoming_host (s : State) (v : List (PhysLine × Bool)) : (s.withIncoming v).host = s.host := rfl
@[simp] theorem withIncoming_counters (s : State) (v : List (PhysLine × Bool)) : (s.withIncoming v).counters = s.counters := rfl
@[simp] theorem withIncoming_windows (s : State) (v : List (PhysLine × Bool)) : (s.withIncoming v).windows = s.windows := rfl
@[simp] theorem withIncoming_causes (s : State) (v : List (PhysLine × Bool)) : (s.withIncoming v).causes = s.causes := rfl
@[simp] theorem withIncoming_policies (s : State) (v : List (PhysLine × Bool)) : (s.withIncoming v).policies = s.policies := rfl
@[simp] theorem withIncoming_evq (s : State) (v : List (PhysLine × Bool)) : (s.withIncoming v).evq = s.evq := rfl
@[simp] theorem withIncoming_irq (s : State) (v : List (PhysLine × Bool)) : (s.withIncoming v).irq = s.irq := rfl
@[simp] theorem withIncoming_tp (s : State) (v : List (PhysLine × Bool)) : (s.withIncoming v).tp = s.tp := rfl
@[simp] theorem withIncoming_bus (s : State) (v : List (PhysLine × Bool)) : (s.withIncoming v).bus = s.bus := rfl
@[simp] theorem withIncoming_pending (s : State) (v : List (PhysLine × Bool)) : (s.withIncoming v).pending = s.pending := rfl
@[simp] theorem withIncoming_received (s : State) (v : List (PhysLine × Bool)) : (s.withIncoming v).received = s.received := rfl
@[simp] theorem withIncoming_incoming (s : State) (v : List (PhysLine × Bool)) : (s.withIncoming v).incoming = v := rfl

end Machine.State

end Sys2Proof
end

