-- ==== Sys2Proof/Laws/Frames.lean ====
section
/-! SUPPORT. The frames of the shared operations: which parts of the state each one leaves. -/

namespace Sys2Proof.Machine

/-- A part of the state that each application of `f` leaves is left by a fold of `f`. -/
theorem foldl_keeps {α β : Type} (π : State → β) (f : State → α → State) (h : ∀ s a, π (f s a) = π s) (l : List α) :
    ∀ s, π (l.foldl f s) = π s := by
  induction l with
  | nil => intro s; rfl
  | cons a l ih => intro s; rw [List.foldl_cons, ih, h]

/-- A property that each application of `f` keeps is kept by a fold of `f`. -/
theorem foldl_invariant {α : Type} (P : State → Prop) (f : State → α → State) (h : ∀ s a, P s → P (f s a))
    (l : List α) : ∀ s, P s → P (l.foldl f s) := by
  induction l with
  | nil => intro s hs; exact hs
  | cons a l ih => intro s hs; exact ih _ (h s a hs)

/-- `countUp` leaves every other part of the state. -/
@[simp] theorem countUp_frame (n : Line) (k : Fin 8) (s : State) :
    (countUp n k s).lines = s.lines ∧ (countUp n k s).enableRefused = s.enableRefused ∧
    (countUp n k s).gens = s.gens ∧ (countUp n k s).stores = s.stores ∧ (countUp n k s).readers = s.readers ∧
    (countUp n k s).bankA = s.bankA ∧ (countUp n k s).bankB = s.bankB ∧ (countUp n k s).bc = s.bc ∧
    (countUp n k s).arb = s.arb ∧ (countUp n k s).txas = s.txas ∧ (countUp n k s).host = s.host ∧
    (countUp n k s).windows = s.windows ∧ (countUp n k s).causes = s.causes ∧
    (countUp n k s).policies = s.policies ∧ (countUp n k s).evq = s.evq ∧ (countUp n k s).irq = s.irq ∧
    (countUp n k s).tp = s.tp ∧ (countUp n k s).bus = s.bus ∧ (countUp n k s).pending = s.pending ∧
    (countUp n k s).received = s.received ∧ (countUp n k s).incoming = s.incoming := by
  refine ⟨?_, ?_, ?_, ?_, ?_, ?_, ?_, ?_, ?_, ?_, ?_, ?_, ?_, ?_, ?_, ?_, ?_, ?_, ?_, ?_, ?_⟩
  all_goals unfold countUp
  all_goals (try dsimp only [])
  all_goals (repeat' split)
  all_goals simp

/-- `countUpIf` leaves every other part of the state. -/
@[simp] theorem countUpIf_frame (b : Bool) (n : Line) (k : Fin 8) (s : State) :
    (countUpIf b n k s).lines = s.lines ∧ (countUpIf b n k s).enableRefused = s.enableRefused ∧
    (countUpIf b n k s).gens = s.gens ∧ (countUpIf b n k s).stores = s.stores ∧
    (countUpIf b n k s).readers = s.readers ∧ (countUpIf b n k s).bankA = s.bankA ∧
    (countUpIf b n k s).bankB = s.bankB ∧ (countUpIf b n k s).bc = s.bc ∧ (countUpIf b n k s).arb = s.arb ∧
    (countUpIf b n k s).txas = s.txas ∧ (countUpIf b n k s).host = s.host ∧
    (countUpIf b n k s).windows = s.windows ∧ (countUpIf b n k s).causes = s.causes ∧
    (countUpIf b n k s).policies = s.policies ∧ (countUpIf b n k s).evq = s.evq ∧ (countUpIf b n k s).irq = s.irq ∧
    (countUpIf b n k s).tp = s.tp ∧ (countUpIf b n k s).bus = s.bus ∧ (countUpIf b n k s).pending = s.pending ∧
    (countUpIf b n k s).received = s.received ∧ (countUpIf b n k s).incoming = s.incoming := by
  refine ⟨?_, ?_, ?_, ?_, ?_, ?_, ?_, ?_, ?_, ?_, ?_, ?_, ?_, ?_, ?_, ?_, ?_, ?_, ?_, ?_, ?_⟩
  all_goals unfold countUpIf
  all_goals (try dsimp only [])
  all_goals (repeat' split)
  all_goals simp

/-- `appendRecord` leaves every other part of the state. -/
@[simp] theorem appendRecord_frame (r : EventRecord) (s : State) :
    (appendRecord r s).lines = s.lines ∧ (appendRecord r s).enableRefused = s.enableRefused ∧
    (appendRecord r s).gens = s.gens ∧ (appendRecord r s).stores = s.stores ∧
    (appendRecord r s).readers = s.readers ∧ (appendRecord r s).bankA = s.bankA ∧
    (appendRecord r s).bankB = s.bankB ∧ (appendRecord r s).bc = s.bc ∧ (appendRecord r s).arb = s.arb ∧
    (appendRecord r s).txas = s.txas ∧ (appendRecord r s).host = s.host ∧
    (appendRecord r s).counters = s.counters ∧ (appendRecord r s).windows = s.windows ∧
    (appendRecord r s).causes = s.causes ∧ (appendRecord r s).policies = s.policies ∧
    (appendRecord r s).tp = s.tp ∧ (appendRecord r s).bus = s.bus ∧ (appendRecord r s).pending = s.pending ∧
    (appendRecord r s).received = s.received ∧ (appendRecord r s).incoming = s.incoming := by
  refine ⟨?_, ?_, ?_, ?_, ?_, ?_, ?_, ?_, ?_, ?_, ?_, ?_, ?_, ?_, ?_, ?_, ?_, ?_, ?_, ?_⟩
  all_goals unfold appendRecord
  all_goals (try dsimp only [])
  all_goals (repeat' split)
  all_goals simp

/-- Appending records leaves every part of the state but the event queue and the interrupt logic. -/
@[simp] theorem appendRecords_frame (rs : List EventRecord) (s : State) :
    (rs.foldl (fun u r => appendRecord r u) s).lines = s.lines ∧
    (rs.foldl (fun u r => appendRecord r u) s).enableRefused = s.enableRefused ∧
    (rs.foldl (fun u r => appendRecord r u) s).gens = s.gens ∧
    (rs.foldl (fun u r => appendRecord r u) s).stores = s.stores ∧
    (rs.foldl (fun u r => appendRecord r u) s).readers = s.readers ∧
    (rs.foldl (fun u r => appendRecord r u) s).bankA = s.bankA ∧
    (rs.foldl (fun u r => appendRecord r u) s).bankB = s.bankB ∧
    (rs.foldl (fun u r => appendRecord r u) s).bc = s.bc ∧ (rs.foldl (fun u r => appendRecord r u) s).arb = s.arb ∧
    (rs.foldl (fun u r => appendRecord r u) s).txas = s.txas ∧
    (rs.foldl (fun u r => appendRecord r u) s).host = s.host ∧
    (rs.foldl (fun u r => appendRecord r u) s).counters = s.counters ∧
    (rs.foldl (fun u r => appendRecord r u) s).windows = s.windows ∧
    (rs.foldl (fun u r => appendRecord r u) s).causes = s.causes ∧
    (rs.foldl (fun u r => appendRecord r u) s).policies = s.policies ∧
    (rs.foldl (fun u r => appendRecord r u) s).tp = s.tp ∧ (rs.foldl (fun u r => appendRecord r u) s).bus = s.bus ∧
    (rs.foldl (fun u r => appendRecord r u) s).pending = s.pending ∧
    (rs.foldl (fun u r => appendRecord r u) s).received = s.received ∧
    (rs.foldl (fun u r => appendRecord r u) s).incoming = s.incoming := by
  refine ⟨?_, ?_, ?_, ?_, ?_, ?_, ?_, ?_, ?_, ?_, ?_, ?_, ?_, ?_, ?_, ?_, ?_, ?_, ?_, ?_⟩
  all_goals exact foldl_keeps _ _ (fun t a => by simp) _ _

/-- The order in which the queue takes the records of an event bears on the event queue and the interrupt logic alone. -/
@[simp] theorem inTurn_frame (turns : List Nat) (f : State → State) (s : State) :
    (inTurn turns f s).lines = (f (s.withEvq { s.evq with records := [] })).lines ∧
    (inTurn turns f s).enableRefused = (f (s.withEvq { s.evq with records := [] })).enableRefused ∧
    (inTurn turns f s).gens = (f (s.withEvq { s.evq with records := [] })).gens ∧
    (inTurn turns f s).stores = (f (s.withEvq { s.evq with records := [] })).stores ∧
    (inTurn turns f s).readers = (f (s.withEvq { s.evq with records := [] })).readers ∧
    (inTurn turns f s).bankA = (f (s.withEvq { s.evq with records := [] })).bankA ∧
    (inTurn turns f s).bankB = (f (s.withEvq { s.evq with records := [] })).bankB ∧
    (inTurn turns f s).bc = (f (s.withEvq { s.evq with records := [] })).bc ∧
    (inTurn turns f s).arb = (f (s.withEvq { s.evq with records := [] })).arb ∧
    (inTurn turns f s).txas = (f (s.withEvq { s.evq with records := [] })).txas ∧
    (inTurn turns f s).host = (f (s.withEvq { s.evq with records := [] })).host ∧
    (inTurn turns f s).counters = (f (s.withEvq { s.evq with records := [] })).counters ∧
    (inTurn turns f s).windows = (f (s.withEvq { s.evq with records := [] })).windows ∧
    (inTurn turns f s).causes = (f (s.withEvq { s.evq with records := [] })).causes ∧
    (inTurn turns f s).policies = (f (s.withEvq { s.evq with records := [] })).policies ∧
    (inTurn turns f s).tp = (f (s.withEvq { s.evq with records := [] })).tp ∧
    (inTurn turns f s).bus = (f (s.withEvq { s.evq with records := [] })).bus ∧
    (inTurn turns f s).pending = (f (s.withEvq { s.evq with records := [] })).pending ∧
    (inTurn turns f s).received = (f (s.withEvq { s.evq with records := [] })).received ∧
    (inTurn turns f s).incoming = (f (s.withEvq { s.evq with records := [] })).incoming := by
  refine ⟨?_, ?_, ?_, ?_, ?_, ?_, ?_, ?_, ?_, ?_, ?_, ?_, ?_, ?_, ?_, ?_, ?_, ?_, ?_, ?_⟩
  all_goals simp [inTurn]

/-- `sendEvent` leaves every other part of the state. -/
@[simp] theorem sendEvent_frame (kind : EventKind) (n : Line) (d : Word) (s : State) :
    (sendEvent kind n d s).lines = s.lines ∧ (sendEvent kind n d s).enableRefused = s.enableRefused ∧
    (sendEvent kind n d s).gens = s.gens ∧ (sendEvent kind n d s).stores = s.stores ∧
    (sendEvent kind n d s).readers = s.readers ∧ (sendEvent kind n d s).bankA = s.bankA ∧
    (sendEvent kind n d s).bankB = s.bankB ∧ (sendEvent kind n d s).bc = s.bc ∧
    (sendEvent kind n d s).arb = s.arb ∧ (sendEvent kind n d s).txas = s.txas ∧
    (sendEvent kind n d s).host = s.host ∧ (sendEvent kind n d s).counters = s.counters ∧
    (sendEvent kind n d s).windows = s.windows ∧ (sendEvent kind n d s).causes = s.causes ∧
    (sendEvent kind n d s).policies = s.policies ∧ (sendEvent kind n d s).tp = s.tp ∧
    (sendEvent kind n d s).bus = s.bus ∧ (sendEvent kind n d s).pending = s.pending ∧
    (sendEvent kind n d s).received = s.received ∧ (sendEvent kind n d s).incoming = s.incoming := by
  refine ⟨?_, ?_, ?_, ?_, ?_, ?_, ?_, ?_, ?_, ?_, ?_, ?_, ?_, ?_, ?_, ?_, ?_, ?_, ?_, ?_⟩
  all_goals unfold sendEvent
  all_goals (try dsimp only [])
  all_goals (repeat' split)
  all_goals simp

/-- `sendBankEvent` leaves every other part of the state. -/
@[simp] theorem sendBankEvent_frame (kind : EventKind) (d : Word) (s : State) :
    (sendBankEvent kind d s).lines = s.lines ∧ (sendBankEvent kind d s).enableRefused = s.enableRefused ∧
    (sendBankEvent kind d s).gens = s.gens ∧ (sendBankEvent kind d s).stores = s.stores ∧
    (sendBankEvent kind d s).readers = s.readers ∧ (sendBankEvent kind d s).bankA = s.bankA ∧
    (sendBankEvent kind d s).bankB = s.bankB ∧ (sendBankEvent kind d s).bc = s.bc ∧
    (sendBankEvent kind d s).arb = s.arb ∧ (sendBankEvent kind d s).txas = s.txas ∧
    (sendBankEvent kind d s).host = s.host ∧ (sendBankEvent kind d s).counters = s.counters ∧
    (sendBankEvent kind d s).windows = s.windows ∧ (sendBankEvent kind d s).causes = s.causes ∧
    (sendBankEvent kind d s).policies = s.policies ∧ (sendBankEvent kind d s).tp = s.tp ∧
    (sendBankEvent kind d s).bus = s.bus ∧ (sendBankEvent kind d s).pending = s.pending ∧
    (sendBankEvent kind d s).received = s.received ∧ (sendBankEvent kind d s).incoming = s.incoming := by
  refine ⟨?_, ?_, ?_, ?_, ?_, ?_, ?_, ?_, ?_, ?_, ?_, ?_, ?_, ?_, ?_, ?_, ?_, ?_, ?_, ?_⟩
  all_goals unfold sendBankEvent
  all_goals (try dsimp only [])
  all_goals (repeat' split)
  all_goals simp

/-- `sendSlip` leaves every other part of the state. -/
@[simp] theorem sendSlip_frame (kind : EventKind) (y x : Line) (k : Nat) (s : State) :
    (sendSlip kind y x k s).lines = s.lines ∧ (sendSlip kind y x k s).enableRefused = s.enableRefused ∧
    (sendSlip kind y x k s).gens = s.gens ∧ (sendSlip kind y x k s).stores = s.stores ∧
    (sendSlip kind y x k s).readers = s.readers ∧ (sendSlip kind y x k s).bankA = s.bankA ∧
    (sendSlip kind y x k s).bankB = s.bankB ∧ (sendSlip kind y x k s).bc = s.bc ∧
    (sendSlip kind y x k s).arb = s.arb ∧ (sendSlip kind y x k s).txas = s.txas ∧
    (sendSlip kind y x k s).host = s.host ∧ (sendSlip kind y x k s).counters = s.counters ∧
    (sendSlip kind y x k s).windows = s.windows ∧ (sendSlip kind y x k s).causes = s.causes ∧
    (sendSlip kind y x k s).policies = s.policies ∧ (sendSlip kind y x k s).tp = s.tp ∧
    (sendSlip kind y x k s).bus = s.bus ∧ (sendSlip kind y x k s).pending = s.pending ∧
    (sendSlip kind y x k s).received = s.received ∧ (sendSlip kind y x k s).incoming = s.incoming := by
  refine ⟨?_, ?_, ?_, ?_, ?_, ?_, ?_, ?_, ?_, ?_, ?_, ?_, ?_, ?_, ?_, ?_, ?_, ?_, ?_, ?_⟩
  all_goals unfold sendSlip
  all_goals (try dsimp only [])
  all_goals (repeat' split)
  all_goals simp

/-- `suspend` leaves every other part of the state. -/
@[simp] theorem suspend_frame (n : Line) (s : State) :
    (suspend n s).lines = s.lines ∧ (suspend n s).enableRefused = s.enableRefused ∧ (suspend n s).gens = s.gens ∧
    (suspend n s).stores = s.stores ∧ (suspend n s).readers = s.readers ∧ (suspend n s).bankA = s.bankA ∧
    (suspend n s).bankB = s.bankB ∧ (suspend n s).bc = s.bc ∧ (suspend n s).arb = s.arb ∧
    (suspend n s).host = s.host ∧ (suspend n s).counters = s.counters ∧ (suspend n s).windows = s.windows ∧
    (suspend n s).causes = s.causes ∧ (suspend n s).policies = s.policies ∧ (suspend n s).evq = s.evq ∧
    (suspend n s).irq = s.irq ∧ (suspend n s).tp = s.tp ∧ (suspend n s).bus = s.bus ∧
    (suspend n s).pending = s.pending ∧ (suspend n s).received = s.received ∧
    (suspend n s).incoming = s.incoming := by
  refine ⟨?_, ?_, ?_, ?_, ?_, ?_, ?_, ?_, ?_, ?_, ?_, ?_, ?_, ?_, ?_, ?_, ?_, ?_, ?_, ?_, ?_⟩
  all_goals unfold suspend
  all_goals (try dsimp only [])
  all_goals (repeat' split)
  all_goals simp

/-- `suspendIfIsolating` leaves every other part of the state. -/
@[simp] theorem suspendIfIsolating_frame (n : Line) (s : State) :
    (suspendIfIsolating n s).lines = s.lines ∧ (suspendIfIsolating n s).enableRefused = s.enableRefused ∧
    (suspendIfIsolating n s).gens = s.gens ∧ (suspendIfIsolating n s).stores = s.stores ∧
    (suspendIfIsolating n s).readers = s.readers ∧ (suspendIfIsolating n s).bankA = s.bankA ∧
    (suspendIfIsolating n s).bankB = s.bankB ∧ (suspendIfIsolating n s).bc = s.bc ∧
    (suspendIfIsolating n s).arb = s.arb ∧ (suspendIfIsolating n s).host = s.host ∧
    (suspendIfIsolating n s).counters = s.counters ∧ (suspendIfIsolating n s).windows = s.windows ∧
    (suspendIfIsolating n s).causes = s.causes ∧ (suspendIfIsolating n s).policies = s.policies ∧
    (suspendIfIsolating n s).evq = s.evq ∧ (suspendIfIsolating n s).irq = s.irq ∧
    (suspendIfIsolating n s).tp = s.tp ∧ (suspendIfIsolating n s).bus = s.bus ∧
    (suspendIfIsolating n s).pending = s.pending ∧ (suspendIfIsolating n s).received = s.received ∧
    (suspendIfIsolating n s).incoming = s.incoming := by
  refine ⟨?_, ?_, ?_, ?_, ?_, ?_, ?_, ?_, ?_, ?_, ?_, ?_, ?_, ?_, ?_, ?_, ?_, ?_, ?_, ?_, ?_⟩
  all_goals unfold suspendIfIsolating
  all_goals (try dsimp only [])
  all_goals (repeat' split)
  all_goals simp

/-- `addCause` leaves every other part of the state. -/
@[simp] theorem addCause_frame (n : Line) (c : Cause) (s : State) :
    (addCause n c s).lines = s.lines ∧ (addCause n c s).enableRefused = s.enableRefused ∧
    (addCause n c s).gens = s.gens ∧ (addCause n c s).stores = s.stores ∧ (addCause n c s).readers = s.readers ∧
    (addCause n c s).bankA = s.bankA ∧ (addCause n c s).bankB = s.bankB ∧ (addCause n c s).bc = s.bc ∧
    (addCause n c s).arb = s.arb ∧ (addCause n c s).host = s.host ∧ (addCause n c s).counters = s.counters ∧
    (addCause n c s).windows = s.windows ∧ (addCause n c s).policies = s.policies ∧ (addCause n c s).tp = s.tp ∧
    (addCause n c s).bus = s.bus ∧ (addCause n c s).pending = s.pending ∧ (addCause n c s).received = s.received ∧
    (addCause n c s).incoming = s.incoming := by
  refine ⟨?_, ?_, ?_, ?_, ?_, ?_, ?_, ?_, ?_, ?_, ?_, ?_, ?_, ?_, ?_, ?_, ?_, ?_⟩
  all_goals unfold addCause
  all_goals (try dsimp only [])
  all_goals (repeat' split)
  all_goals simp

/-- `giveGroup` leaves every other part of the state. -/
@[simp] theorem giveGroup_frame (g : Line → Bool) (s : State) :
    (giveGroup g s).lines = s.lines ∧ (giveGroup g s).enableRefused = s.enableRefused ∧
    (giveGroup g s).gens = s.gens ∧ (giveGroup g s).stores = s.stores ∧ (giveGroup g s).readers = s.readers ∧
    (giveGroup g s).bankA = s.bankA ∧ (giveGroup g s).bankB = s.bankB ∧ (giveGroup g s).bc = s.bc ∧
    (giveGroup g s).arb = s.arb ∧ (giveGroup g s).host = s.host ∧ (giveGroup g s).counters = s.counters ∧
    (giveGroup g s).windows = s.windows ∧ (giveGroup g s).policies = s.policies ∧ (giveGroup g s).tp = s.tp ∧
    (giveGroup g s).bus = s.bus ∧ (giveGroup g s).pending = s.pending ∧ (giveGroup g s).received = s.received ∧
    (giveGroup g s).incoming = s.incoming := by
  refine ⟨?_, ?_, ?_, ?_, ?_, ?_, ?_, ?_, ?_, ?_, ?_, ?_, ?_, ?_, ?_, ?_, ?_, ?_⟩
  all_goals unfold giveGroup
  all_goals (try dsimp only [])
  all_goals (repeat' split)
  all_goals (try with_reducible rfl)
  all_goals
    refine (foldl_keeps _ _ (fun t a => ?_) _ _).trans ?_ <;> (try dsimp only []) <;> (repeat' split) <;> simp

/-- `addOwnCause` leaves every other part of the state. -/
@[simp] theorem addOwnCause_frame (n : Line) (c : Cause) (s : State) :
    (addOwnCause n c s).lines = s.lines ∧ (addOwnCause n c s).enableRefused = s.enableRefused ∧
    (addOwnCause n c s).gens = s.gens ∧ (addOwnCause n c s).stores = s.stores ∧
    (addOwnCause n c s).readers = s.readers ∧ (addOwnCause n c s).bankA = s.bankA ∧
    (addOwnCause n c s).bankB = s.bankB ∧ (addOwnCause n c s).bc = s.bc ∧ (addOwnCause n c s).arb = s.arb ∧
    (addOwnCause n c s).host = s.host ∧ (addOwnCause n c s).counters = s.counters ∧
    (addOwnCause n c s).windows = s.windows ∧ (addOwnCause n c s).policies = s.policies ∧
    (addOwnCause n c s).tp = s.tp ∧ (addOwnCause n c s).bus = s.bus ∧ (addOwnCause n c s).pending = s.pending ∧
    (addOwnCause n c s).received = s.received ∧ (addOwnCause n c s).incoming = s.incoming := by
  refine ⟨?_, ?_, ?_, ?_, ?_, ?_, ?_, ?_, ?_, ?_, ?_, ?_, ?_, ?_, ?_, ?_, ?_, ?_⟩
  all_goals unfold addOwnCause
  all_goals (try dsimp only [])
  all_goals (repeat' split)
  all_goals simp

/-- `releaseLine` leaves every other part of the state. -/
@[simp] theorem releaseLine_frame (n : Line) (s : State) :
    (releaseLine n s).enableRefused = s.enableRefused ∧ (releaseLine n s).gens = s.gens ∧
    (releaseLine n s).stores = s.stores ∧ (releaseLine n s).readers = s.readers ∧
    (releaseLine n s).bankA = s.bankA ∧ (releaseLine n s).bankB = s.bankB ∧ (releaseLine n s).bc = s.bc ∧
    (releaseLine n s).arb = s.arb ∧ (releaseLine n s).txas = s.txas ∧ (releaseLine n s).host = s.host ∧
    (releaseLine n s).counters = s.counters ∧ (releaseLine n s).windows = s.windows ∧
    (releaseLine n s).policies = s.policies ∧ (releaseLine n s).tp = s.tp ∧ (releaseLine n s).bus = s.bus ∧
    (releaseLine n s).pending = s.pending ∧ (releaseLine n s).received = s.received ∧
    (releaseLine n s).incoming = s.incoming := by
  refine ⟨?_, ?_, ?_, ?_, ?_, ?_, ?_, ?_, ?_, ?_, ?_, ?_, ?_, ?_, ?_, ?_, ?_, ?_⟩
  all_goals unfold releaseLine
  all_goals (try dsimp only [])
  all_goals (repeat' split)
  all_goals simp

/-- `releaseLines` leaves every other part of the state. -/
@[simp] theorem releaseLines_frame (named : Line → Bool) (s : State) :
    (releaseLines named s).enableRefused = s.enableRefused ∧ (releaseLines named s).gens = s.gens ∧
    (releaseLines named s).stores = s.stores ∧ (releaseLines named s).readers = s.readers ∧
    (releaseLines named s).bankA = s.bankA ∧ (releaseLines named s).bankB = s.bankB ∧
    (releaseLines named s).bc = s.bc ∧ (releaseLines named s).arb = s.arb ∧ (releaseLines named s).host = s.host ∧
    (releaseLines named s).counters = s.counters ∧ (releaseLines named s).windows = s.windows ∧
    (releaseLines named s).policies = s.policies ∧ (releaseLines named s).tp = s.tp ∧
    (releaseLines named s).bus = s.bus ∧ (releaseLines named s).pending = s.pending ∧
    (releaseLines named s).received = s.received ∧ (releaseLines named s).incoming = s.incoming := by
  refine ⟨?_, ?_, ?_, ?_, ?_, ?_, ?_, ?_, ?_, ?_, ?_, ?_, ?_, ?_, ?_, ?_, ?_⟩
  all_goals unfold releaseLines
  all_goals (try dsimp only [])
  all_goals (repeat' split)
  all_goals (try simp only [giveGroup_frame])
  all_goals (try with_reducible rfl)
  all_goals
    refine (foldl_keeps _ _ (fun t a => ?_) _ _).trans ?_ <;> (try dsimp only []) <;> (repeat' split) <;> simp

/-- `completeCommit` leaves every other part of the state. -/
@[simp] theorem completeCommit_frame (s : State) :
    (completeCommit s).lines = s.lines ∧ (completeCommit s).enableRefused = s.enableRefused ∧
    (completeCommit s).gens = s.gens ∧ (completeCommit s).stores = s.stores ∧
    (completeCommit s).readers = s.readers ∧ (completeCommit s).bankA = s.bankA ∧
    (completeCommit s).bankB = s.bankB ∧ (completeCommit s).arb = s.arb ∧ (completeCommit s).txas = s.txas ∧
    (completeCommit s).host = s.host ∧ (completeCommit s).counters = s.counters ∧
    (completeCommit s).windows = s.windows ∧ (completeCommit s).causes = s.causes ∧
    (completeCommit s).policies = s.policies ∧ (completeCommit s).tp = s.tp ∧ (completeCommit s).bus = s.bus ∧
    (completeCommit s).pending = s.pending ∧ (completeCommit s).received = s.received ∧
    (completeCommit s).incoming = s.incoming := by
  refine ⟨?_, ?_, ?_, ?_, ?_, ?_, ?_, ?_, ?_, ?_, ?_, ?_, ?_, ?_, ?_, ?_, ?_, ?_, ?_⟩
  all_goals unfold completeCommit
  all_goals (try dsimp only [])
  all_goals (repeat' split)
  all_goals simp

/-- `adopt` leaves every other part of the state. -/
@[simp] theorem adopt_frame (n : Line) (s : State) :
    (adopt n s).lines = s.lines ∧ (adopt n s).enableRefused = s.enableRefused ∧ (adopt n s).gens = s.gens ∧
    (adopt n s).stores = s.stores ∧ (adopt n s).readers = s.readers ∧ (adopt n s).bankA = s.bankA ∧
    (adopt n s).bankB = s.bankB ∧ (adopt n s).arb = s.arb ∧ (adopt n s).txas = s.txas ∧ (adopt n s).host = s.host ∧
    (adopt n s).counters = s.counters ∧ (adopt n s).windows = s.windows ∧ (adopt n s).causes = s.causes ∧
    (adopt n s).policies = s.policies ∧ (adopt n s).tp = s.tp ∧ (adopt n s).bus = s.bus ∧
    (adopt n s).pending = s.pending ∧ (adopt n s).received = s.received ∧ (adopt n s).incoming = s.incoming := by
  refine ⟨?_, ?_, ?_, ?_, ?_, ?_, ?_, ?_, ?_, ?_, ?_, ?_, ?_, ?_, ?_, ?_, ?_, ?_, ?_⟩
  all_goals unfold adopt
  all_goals (try dsimp only [])
  all_goals (repeat' split)
  all_goals simp

/-- `withdrawLoad` leaves every other part of the state. -/
@[simp] theorem withdrawLoad_frame (n : Line) (s : State) :
    (withdrawLoad n s).lines = s.lines ∧ (withdrawLoad n s).enableRefused = s.enableRefused ∧
    (withdrawLoad n s).gens = s.gens ∧ (withdrawLoad n s).stores = s.stores ∧
    (withdrawLoad n s).readers = s.readers ∧ (withdrawLoad n s).bankA = s.bankA ∧
    (withdrawLoad n s).bankB = s.bankB ∧ (withdrawLoad n s).bc = s.bc ∧ (withdrawLoad n s).txas = s.txas ∧
    (withdrawLoad n s).host = s.host ∧ (withdrawLoad n s).counters = s.counters ∧
    (withdrawLoad n s).windows = s.windows ∧ (withdrawLoad n s).causes = s.causes ∧
    (withdrawLoad n s).policies = s.policies ∧ (withdrawLoad n s).evq = s.evq ∧ (withdrawLoad n s).irq = s.irq ∧
    (withdrawLoad n s).tp = s.tp ∧ (withdrawLoad n s).bus = s.bus ∧ (withdrawLoad n s).pending = s.pending ∧
    (withdrawLoad n s).received = s.received ∧ (withdrawLoad n s).incoming = s.incoming := by
  refine ⟨?_, ?_, ?_, ?_, ?_, ?_, ?_, ?_, ?_, ?_, ?_, ?_, ?_, ?_, ?_, ?_, ?_, ?_, ?_, ?_, ?_⟩
  all_goals unfold withdrawLoad
  all_goals (try dsimp only [])
  all_goals (repeat' split)
  all_goals simp

/-- `driveData` leaves every other part of the state. -/
@[simp] theorem driveData_frame (w : Word) (s : State) :
    (driveData w s).lines = s.lines ∧ (driveData w s).enableRefused = s.enableRefused ∧
    (driveData w s).gens = s.gens ∧ (driveData w s).stores = s.stores ∧ (driveData w s).readers = s.readers ∧
    (driveData w s).bankA = s.bankA ∧ (driveData w s).bankB = s.bankB ∧ (driveData w s).bc = s.bc ∧
    (driveData w s).arb = s.arb ∧ (driveData w s).txas = s.txas ∧ (driveData w s).host = s.host ∧
    (driveData w s).counters = s.counters ∧ (driveData w s).windows = s.windows ∧
    (driveData w s).causes = s.causes ∧ (driveData w s).policies = s.policies ∧ (driveData w s).evq = s.evq ∧
    (driveData w s).irq = s.irq ∧ (driveData w s).tp = s.tp ∧ (driveData w s).pending = s.pending ∧
    (driveData w s).received = s.received ∧ (driveData w s).incoming = s.incoming := by
  refine ⟨?_, ?_, ?_, ?_, ?_, ?_, ?_, ?_, ?_, ?_, ?_, ?_, ?_, ?_, ?_, ?_, ?_, ?_, ?_, ?_, ?_⟩
  all_goals unfold driveData
  all_goals (try dsimp only [])
  all_goals (repeat' split)
  all_goals simp

/-- `modifyStore` leaves every other part of the state. -/
@[simp] theorem modifyStore_frame (n : Line) (f : Store → Store) (s : State) :
    (modifyStore n f s).lines = s.lines ∧ (modifyStore n f s).enableRefused = s.enableRefused ∧
    (modifyStore n f s).gens = s.gens ∧ (modifyStore n f s).readers = s.readers ∧
    (modifyStore n f s).bankA = s.bankA ∧ (modifyStore n f s).bankB = s.bankB ∧ (modifyStore n f s).bc = s.bc ∧
    (modifyStore n f s).arb = s.arb ∧ (modifyStore n f s).txas = s.txas ∧ (modifyStore n f s).host = s.host ∧
    (modifyStore n f s).counters = s.counters ∧ (modifyStore n f s).windows = s.windows ∧
    (modifyStore n f s).causes = s.causes ∧ (modifyStore n f s).policies = s.policies ∧
    (modifyStore n f s).evq = s.evq ∧ (modifyStore n f s).irq = s.irq ∧ (modifyStore n f s).tp = s.tp ∧
    (modifyStore n f s).bus = s.bus ∧ (modifyStore n f s).pending = s.pending ∧
    (modifyStore n f s).received = s.received ∧ (modifyStore n f s).incoming = s.incoming := by
  refine ⟨?_, ?_, ?_, ?_, ?_, ?_, ?_, ?_, ?_, ?_, ?_, ?_, ?_, ?_, ?_, ?_, ?_, ?_, ?_, ?_, ?_⟩
  all_goals unfold modifyStore
  all_goals (try dsimp only [])
  all_goals (repeat' split)
  all_goals simp

/-- `overrun` leaves every other part of the state. -/
@[simp] theorem overrun_frame (n : Line) (s : State) :
    (overrun n s).lines = s.lines ∧ (overrun n s).enableRefused = s.enableRefused ∧ (overrun n s).gens = s.gens ∧
    (overrun n s).readers = s.readers ∧ (overrun n s).bankA = s.bankA ∧ (overrun n s).bankB = s.bankB ∧
    (overrun n s).bc = s.bc ∧ (overrun n s).arb = s.arb ∧ (overrun n s).txas = s.txas ∧
    (overrun n s).host = s.host ∧ (overrun n s).windows = s.windows ∧ (overrun n s).causes = s.causes ∧
    (overrun n s).policies = s.policies ∧ (overrun n s).tp = s.tp ∧ (overrun n s).bus = s.bus ∧
    (overrun n s).pending = s.pending ∧ (overrun n s).received = s.received ∧
    (overrun n s).incoming = s.incoming := by
  refine ⟨?_, ?_, ?_, ?_, ?_, ?_, ?_, ?_, ?_, ?_, ?_, ?_, ?_, ?_, ?_, ?_, ?_, ?_⟩
  all_goals unfold overrun
  all_goals (try dsimp only [])
  all_goals (repeat' split)
  all_goals simp

/-- `acquire` leaves every other part of the state. -/
@[simp] theorem acquire_frame (n : Line) (s : State) :
    (acquire n s).lines = s.lines ∧ (acquire n s).enableRefused = s.enableRefused ∧ (acquire n s).gens = s.gens ∧
    (acquire n s).readers = s.readers ∧ (acquire n s).bankA = s.bankA ∧ (acquire n s).bankB = s.bankB ∧
    (acquire n s).bc = s.bc ∧ (acquire n s).arb = s.arb ∧ (acquire n s).txas = s.txas ∧
    (acquire n s).host = s.host ∧ (acquire n s).windows = s.windows ∧ (acquire n s).causes = s.causes ∧
    (acquire n s).policies = s.policies ∧ (acquire n s).tp = s.tp ∧ (acquire n s).bus = s.bus ∧
    (acquire n s).pending = s.pending ∧ (acquire n s).received = s.received ∧
    (acquire n s).incoming = s.incoming := by
  refine ⟨?_, ?_, ?_, ?_, ?_, ?_, ?_, ?_, ?_, ?_, ?_, ?_, ?_, ?_, ?_, ?_, ?_, ?_⟩
  all_goals unfold acquire
  all_goals (try dsimp only [])
  all_goals (repeat' split)
  all_goals simp

/-- `placeInsert` leaves every other part of the state. -/
@[simp] theorem placeInsert_frame (f : InsertFrame) (s : State) :
    (placeInsert f s).lines = s.lines ∧ (placeInsert f s).enableRefused = s.enableRefused ∧
    (placeInsert f s).gens = s.gens ∧ (placeInsert f s).readers = s.readers ∧ (placeInsert f s).bankA = s.bankA ∧
    (placeInsert f s).bankB = s.bankB ∧ (placeInsert f s).bc = s.bc ∧ (placeInsert f s).arb = s.arb ∧
    (placeInsert f s).txas = s.txas ∧ (placeInsert f s).host = s.host ∧ (placeInsert f s).windows = s.windows ∧
    (placeInsert f s).causes = s.causes ∧ (placeInsert f s).policies = s.policies ∧ (placeInsert f s).tp = s.tp ∧
    (placeInsert f s).bus = s.bus ∧ (placeInsert f s).pending = s.pending ∧
    (placeInsert f s).received = s.received ∧ (placeInsert f s).incoming = s.incoming := by
  refine ⟨?_, ?_, ?_, ?_, ?_, ?_, ?_, ?_, ?_, ?_, ?_, ?_, ?_, ?_, ?_, ?_, ?_, ?_⟩
  all_goals unfold placeInsert
  all_goals (try dsimp only [])
  all_goals (repeat' split)
  all_goals simp

/-- `releaseHolds` leaves every other part of the state. -/
@[simp] theorem releaseHolds_frame (y : Line) (s : State) :
    (releaseHolds y s).lines = s.lines ∧ (releaseHolds y s).enableRefused = s.enableRefused ∧
    (releaseHolds y s).gens = s.gens ∧ (releaseHolds y s).bankA = s.bankA ∧ (releaseHolds y s).bankB = s.bankB ∧
    (releaseHolds y s).bc = s.bc ∧ (releaseHolds y s).arb = s.arb ∧ (releaseHolds y s).txas = s.txas ∧
    (releaseHolds y s).host = s.host ∧ (releaseHolds y s).counters = s.counters ∧
    (releaseHolds y s).windows = s.windows ∧ (releaseHolds y s).causes = s.causes ∧
    (releaseHolds y s).policies = s.policies ∧ (releaseHolds y s).evq = s.evq ∧ (releaseHolds y s).irq = s.irq ∧
    (releaseHolds y s).tp = s.tp ∧ (releaseHolds y s).bus = s.bus ∧ (releaseHolds y s).pending = s.pending ∧
    (releaseHolds y s).received = s.received ∧ (releaseHolds y s).incoming = s.incoming := by
  refine ⟨?_, ?_, ?_, ?_, ?_, ?_, ?_, ?_, ?_, ?_, ?_, ?_, ?_, ?_, ?_, ?_, ?_, ?_, ?_, ?_⟩
  all_goals unfold releaseHolds
  all_goals (try dsimp only [])
  all_goals (repeat' split)
  all_goals simp

/-- `dropHolds` leaves every other part of the state. -/
@[simp] theorem dropHolds_frame (y : Line) (s : State) :
    (dropHolds y s).lines = s.lines ∧ (dropHolds y s).enableRefused = s.enableRefused ∧
    (dropHolds y s).gens = s.gens ∧ (dropHolds y s).bankA = s.bankA ∧ (dropHolds y s).bankB = s.bankB ∧
    (dropHolds y s).bc = s.bc ∧ (dropHolds y s).arb = s.arb ∧ (dropHolds y s).txas = s.txas ∧
    (dropHolds y s).host = s.host ∧ (dropHolds y s).counters = s.counters ∧ (dropHolds y s).windows = s.windows ∧
    (dropHolds y s).causes = s.causes ∧ (dropHolds y s).policies = s.policies ∧ (dropHolds y s).evq = s.evq ∧
    (dropHolds y s).irq = s.irq ∧ (dropHolds y s).tp = s.tp ∧ (dropHolds y s).bus = s.bus ∧
    (dropHolds y s).pending = s.pending ∧ (dropHolds y s).received = s.received ∧
    (dropHolds y s).incoming = s.incoming := by
  refine ⟨?_, ?_, ?_, ?_, ?_, ?_, ?_, ?_, ?_, ?_, ?_, ?_, ?_, ?_, ?_, ?_, ?_, ?_, ?_, ?_⟩
  all_goals unfold dropHolds
  all_goals (try dsimp only [])
  all_goals (repeat' split)
  all_goals simp

/-- `report` leaves every other part of the state. -/
@[simp] theorem report_frame (n : Line) (v : Verdict) (s : State) :
    (report n v s).enableRefused = s.enableRefused ∧ (report n v s).gens = s.gens ∧
    (report n v s).stores = s.stores ∧ (report n v s).readers = s.readers ∧ (report n v s).bankA = s.bankA ∧
    (report n v s).bankB = s.bankB ∧ (report n v s).bc = s.bc ∧ (report n v s).arb = s.arb ∧
    (report n v s).txas = s.txas ∧ (report n v s).host = s.host ∧ (report n v s).windows = s.windows ∧
    (report n v s).causes = s.causes ∧ (report n v s).policies = s.policies ∧ (report n v s).evq = s.evq ∧
    (report n v s).irq = s.irq ∧ (report n v s).tp = s.tp ∧ (report n v s).bus = s.bus ∧
    (report n v s).pending = s.pending ∧ (report n v s).received = s.received ∧
    (report n v s).incoming = s.incoming := by
  refine ⟨?_, ?_, ?_, ?_, ?_, ?_, ?_, ?_, ?_, ?_, ?_, ?_, ?_, ?_, ?_, ?_, ?_, ?_, ?_, ?_⟩
  all_goals unfold report
  all_goals (try dsimp only [])
  all_goals (repeat' split)
  all_goals simp

/-- `advanceWindow` leaves every other part of the state. -/
@[simp] theorem advanceWindow_frame (n : Line) (d : Bool) (s : State) :
    (advanceWindow n d s).lines = s.lines ∧ (advanceWindow n d s).enableRefused = s.enableRefused ∧
    (advanceWindow n d s).gens = s.gens ∧ (advanceWindow n d s).stores = s.stores ∧
    (advanceWindow n d s).readers = s.readers ∧ (advanceWindow n d s).bankA = s.bankA ∧
    (advanceWindow n d s).bankB = s.bankB ∧ (advanceWindow n d s).bc = s.bc ∧ (advanceWindow n d s).arb = s.arb ∧
    (advanceWindow n d s).host = s.host ∧ (advanceWindow n d s).counters = s.counters ∧
    (advanceWindow n d s).policies = s.policies ∧ (advanceWindow n d s).tp = s.tp ∧
    (advanceWindow n d s).bus = s.bus ∧ (advanceWindow n d s).pending = s.pending ∧
    (advanceWindow n d s).received = s.received ∧ (advanceWindow n d s).incoming = s.incoming := by
  refine ⟨?_, ?_, ?_, ?_, ?_, ?_, ?_, ?_, ?_, ?_, ?_, ?_, ?_, ?_, ?_, ?_, ?_⟩
  all_goals unfold advanceWindow
  all_goals (try dsimp only [])
  all_goals (repeat' split)
  all_goals simp

/-- `receiveBoundary` leaves every other part of the state. -/
@[simp] theorem receiveBoundary_frame (n : Line) (f : List Word) (sh : Bool) (s : State) :
    (receiveBoundary n f sh s).enableRefused = s.enableRefused ∧ (receiveBoundary n f sh s).gens = s.gens ∧
    (receiveBoundary n f sh s).readers = s.readers ∧ (receiveBoundary n f sh s).bankA = s.bankA ∧
    (receiveBoundary n f sh s).bankB = s.bankB ∧ (receiveBoundary n f sh s).bc = s.bc ∧
    (receiveBoundary n f sh s).arb = s.arb ∧ (receiveBoundary n f sh s).host = s.host ∧
    (receiveBoundary n f sh s).policies = s.policies ∧ (receiveBoundary n f sh s).tp = s.tp ∧
    (receiveBoundary n f sh s).bus = s.bus ∧ (receiveBoundary n f sh s).pending = s.pending ∧
    (receiveBoundary n f sh s).received = s.received ∧ (receiveBoundary n f sh s).incoming = s.incoming := by
  refine ⟨?_, ?_, ?_, ?_, ?_, ?_, ?_, ?_, ?_, ?_, ?_, ?_, ?_, ?_⟩
  all_goals unfold receiveBoundary
  all_goals (try dsimp only [])
  all_goals (repeat' split)
  all_goals simp

/-- `appendCapture` leaves every other part of the state. -/
@[simp] theorem appendCapture_frame (c : CapturedFrame) (s : State) :
    (appendCapture c s).lines = s.lines ∧ (appendCapture c s).enableRefused = s.enableRefused ∧
    (appendCapture c s).gens = s.gens ∧ (appendCapture c s).stores = s.stores ∧
    (appendCapture c s).readers = s.readers ∧ (appendCapture c s).bankA = s.bankA ∧
    (appendCapture c s).bankB = s.bankB ∧ (appendCapture c s).bc = s.bc ∧ (appendCapture c s).arb = s.arb ∧
    (appendCapture c s).txas = s.txas ∧ (appendCapture c s).windows = s.windows ∧
    (appendCapture c s).causes = s.causes ∧ (appendCapture c s).policies = s.policies ∧
    (appendCapture c s).tp = s.tp ∧ (appendCapture c s).bus = s.bus ∧ (appendCapture c s).pending = s.pending ∧
    (appendCapture c s).received = s.received ∧ (appendCapture c s).incoming = s.incoming := by
  refine ⟨?_, ?_, ?_, ?_, ?_, ?_, ?_, ?_, ?_, ?_, ?_, ?_, ?_, ?_, ?_, ?_, ?_, ?_⟩
  all_goals unfold appendCapture
  all_goals (try dsimp only [])
  all_goals (repeat' split)
  all_goals simp

/-- `deliverCapture` leaves every other part of the state. -/
@[simp] theorem deliverCapture_frame (s : State) :
    (deliverCapture s).lines = s.lines ∧ (deliverCapture s).enableRefused = s.enableRefused ∧
    (deliverCapture s).gens = s.gens ∧ (deliverCapture s).stores = s.stores ∧
    (deliverCapture s).readers = s.readers ∧ (deliverCapture s).bankA = s.bankA ∧
    (deliverCapture s).bankB = s.bankB ∧ (deliverCapture s).bc = s.bc ∧ (deliverCapture s).arb = s.arb ∧
    (deliverCapture s).windows = s.windows ∧ (deliverCapture s).causes = s.causes ∧
    (deliverCapture s).policies = s.policies ∧ (deliverCapture s).tp = s.tp ∧ (deliverCapture s).bus = s.bus ∧
    (deliverCapture s).pending = s.pending ∧ (deliverCapture s).received = s.received ∧
    (deliverCapture s).incoming = s.incoming := by
  refine ⟨?_, ?_, ?_, ?_, ?_, ?_, ?_, ?_, ?_, ?_, ?_, ?_, ?_, ?_, ?_, ?_, ?_⟩
  all_goals unfold deliverCapture
  all_goals (try dsimp only [])
  all_goals (repeat' split)
  all_goals simp

/-- `handOver` leaves every other part of the state. -/
@[simp] theorem handOver_frame (s : State) :
    (handOver s).lines = s.lines ∧ (handOver s).enableRefused = s.enableRefused ∧ (handOver s).gens = s.gens ∧
    (handOver s).readers = s.readers ∧ (handOver s).bankA = s.bankA ∧ (handOver s).bankB = s.bankB ∧
    (handOver s).bc = s.bc ∧ (handOver s).arb = s.arb ∧ (handOver s).txas = s.txas ∧
    (handOver s).windows = s.windows ∧ (handOver s).causes = s.causes ∧ (handOver s).policies = s.policies ∧
    (handOver s).tp = s.tp ∧ (handOver s).bus = s.bus ∧ (handOver s).pending = s.pending ∧
    (handOver s).received = s.received ∧ (handOver s).incoming = s.incoming := by
  refine ⟨?_, ?_, ?_, ?_, ?_, ?_, ?_, ?_, ?_, ?_, ?_, ?_, ?_, ?_, ?_, ?_, ?_⟩
  all_goals unfold handOver
  all_goals (try dsimp only [])
  all_goals (repeat' split)
  all_goals simp

/-- `hostBoundary` leaves every other part of the state. -/
@[simp] theorem hostBoundary_frame (s : State) :
    (hostBoundary s).lines = s.lines ∧ (hostBoundary s).enableRefused = s.enableRefused ∧
    (hostBoundary s).gens = s.gens ∧ (hostBoundary s).readers = s.readers ∧ (hostBoundary s).bankA = s.bankA ∧
    (hostBoundary s).bankB = s.bankB ∧ (hostBoundary s).bc = s.bc ∧ (hostBoundary s).arb = s.arb ∧
    (hostBoundary s).windows = s.windows ∧ (hostBoundary s).causes = s.causes ∧
    (hostBoundary s).policies = s.policies ∧ (hostBoundary s).tp = s.tp ∧ (hostBoundary s).bus = s.bus ∧
    (hostBoundary s).pending = s.pending ∧ (hostBoundary s).received = s.received ∧
    (hostBoundary s).incoming = s.incoming := by
  refine ⟨?_, ?_, ?_, ?_, ?_, ?_, ?_, ?_, ?_, ?_, ?_, ?_, ?_, ?_, ?_, ?_⟩
  all_goals unfold hostBoundary
  all_goals (try dsimp only [])
  all_goals (repeat' split)
  all_goals simp

/-- `testSuspension` leaves every other part of the state. -/
@[simp] theorem testSuspension_frame (n : Line) (s : State) :
    (testSuspension n s).lines = s.lines ∧ (testSuspension n s).enableRefused = s.enableRefused ∧
    (testSuspension n s).gens = s.gens ∧ (testSuspension n s).stores = s.stores ∧
    (testSuspension n s).readers = s.readers ∧ (testSuspension n s).bankA = s.bankA ∧
    (testSuspension n s).bankB = s.bankB ∧ (testSuspension n s).bc = s.bc ∧ (testSuspension n s).arb = s.arb ∧
    (testSuspension n s).host = s.host ∧ (testSuspension n s).counters = s.counters ∧
    (testSuspension n s).windows = s.windows ∧ (testSuspension n s).causes = s.causes ∧
    (testSuspension n s).policies = s.policies ∧ (testSuspension n s).evq = s.evq ∧
    (testSuspension n s).irq = s.irq ∧ (testSuspension n s).tp = s.tp ∧ (testSuspension n s).bus = s.bus ∧
    (testSuspension n s).pending = s.pending ∧ (testSuspension n s).received = s.received ∧
    (testSuspension n s).incoming = s.incoming := by
  refine ⟨?_, ?_, ?_, ?_, ?_, ?_, ?_, ?_, ?_, ?_, ?_, ?_, ?_, ?_, ?_, ?_, ?_, ?_, ?_, ?_, ?_⟩
  all_goals unfold testSuspension
  all_goals (try dsimp only [])
  all_goals (repeat' split)
  all_goals simp

/-- `placeLoad` leaves every other part of the state. -/
@[simp] theorem placeLoad_frame (n : Line) (s : State) :
    (placeLoad n s).lines = s.lines ∧ (placeLoad n s).enableRefused = s.enableRefused ∧
    (placeLoad n s).gens = s.gens ∧ (placeLoad n s).stores = s.stores ∧ (placeLoad n s).readers = s.readers ∧
    (placeLoad n s).bankA = s.bankA ∧ (placeLoad n s).bankB = s.bankB ∧ (placeLoad n s).bc = s.bc ∧
    (placeLoad n s).txas = s.txas ∧ (placeLoad n s).host = s.host ∧ (placeLoad n s).counters = s.counters ∧
    (placeLoad n s).windows = s.windows ∧ (placeLoad n s).causes = s.causes ∧
    (placeLoad n s).policies = s.policies ∧ (placeLoad n s).evq = s.evq ∧ (placeLoad n s).irq = s.irq ∧
    (placeLoad n s).tp = s.tp ∧ (placeLoad n s).bus = s.bus ∧ (placeLoad n s).pending = s.pending ∧
    (placeLoad n s).received = s.received ∧ (placeLoad n s).incoming = s.incoming := by
  refine ⟨?_, ?_, ?_, ?_, ?_, ?_, ?_, ?_, ?_, ?_, ?_, ?_, ?_, ?_, ?_, ?_, ?_, ?_, ?_, ?_, ?_⟩
  all_goals unfold placeLoad
  all_goals (try dsimp only [])
  all_goals (repeat' split)
  all_goals simp

/-- `endFrame` leaves every other part of the state. -/
@[simp] theorem endFrame_frame (n : Line) (s : State) :
    (endFrame n s).lines = s.lines ∧ (endFrame n s).enableRefused = s.enableRefused ∧
    (endFrame n s).gens = s.gens ∧ (endFrame n s).stores = s.stores ∧ (endFrame n s).readers = s.readers ∧
    (endFrame n s).bankA = s.bankA ∧ (endFrame n s).bankB = s.bankB ∧ (endFrame n s).bc = s.bc ∧
    (endFrame n s).arb = s.arb ∧ (endFrame n s).host = s.host ∧ (endFrame n s).counters = s.counters ∧
    (endFrame n s).windows = s.windows ∧ (endFrame n s).causes = s.causes ∧ (endFrame n s).policies = s.policies ∧
    (endFrame n s).evq = s.evq ∧ (endFrame n s).irq = s.irq ∧ (endFrame n s).tp = s.tp ∧
    (endFrame n s).bus = s.bus ∧ (endFrame n s).pending = s.pending ∧ (endFrame n s).received = s.received ∧
    (endFrame n s).incoming = s.incoming := by
  refine ⟨?_, ?_, ?_, ?_, ?_, ?_, ?_, ?_, ?_, ?_, ?_, ?_, ?_, ?_, ?_, ?_, ?_, ?_, ?_, ?_, ?_⟩
  all_goals unfold endFrame
  all_goals (try dsimp only [])
  all_goals (repeat' split)
  all_goals simp

/-- `transmitBoundary` leaves every other part of the state. -/
@[simp] theorem transmitBoundary_frame (n : Line) (s : State) :
    (transmitBoundary n s).lines = s.lines ∧ (transmitBoundary n s).enableRefused = s.enableRefused ∧
    (transmitBoundary n s).gens = s.gens ∧ (transmitBoundary n s).bankA = s.bankA ∧
    (transmitBoundary n s).bankB = s.bankB ∧ (transmitBoundary n s).host = s.host ∧
    (transmitBoundary n s).counters = s.counters ∧ (transmitBoundary n s).windows = s.windows ∧
    (transmitBoundary n s).causes = s.causes ∧ (transmitBoundary n s).policies = s.policies ∧
    (transmitBoundary n s).tp = s.tp ∧ (transmitBoundary n s).bus = s.bus ∧
    (transmitBoundary n s).pending = s.pending ∧ (transmitBoundary n s).received = s.received ∧
    (transmitBoundary n s).incoming = s.incoming := by
  refine ⟨?_, ?_, ?_, ?_, ?_, ?_, ?_, ?_, ?_, ?_, ?_, ?_, ?_, ?_, ?_⟩
  all_goals unfold transmitBoundary
  all_goals (try dsimp only [])
  all_goals (repeat' split)
  all_goals simp

/-- `boundary` leaves every other part of the state. -/
@[simp] theorem boundary_frame (n : Line) (f : List Word) (sh tx : Bool) (s : State) :
    (boundary n f sh tx s).enableRefused = s.enableRefused ∧ (boundary n f sh tx s).gens = s.gens ∧
    (boundary n f sh tx s).bankA = s.bankA ∧ (boundary n f sh tx s).bankB = s.bankB ∧
    (boundary n f sh tx s).host = s.host ∧ (boundary n f sh tx s).policies = s.policies ∧
    (boundary n f sh tx s).tp = s.tp ∧ (boundary n f sh tx s).bus = s.bus ∧
    (boundary n f sh tx s).pending = s.pending ∧ (boundary n f sh tx s).received = s.received ∧
    (boundary n f sh tx s).incoming = s.incoming := by
  refine ⟨?_, ?_, ?_, ?_, ?_, ?_, ?_, ?_, ?_, ?_, ?_⟩
  all_goals unfold boundary
  all_goals (try dsimp only [])
  all_goals (repeat' split)
  all_goals simp

/-- `lock` leaves every other part of the state. -/
@[simp] theorem lock_frame (n : Line) (s : State) :
    (lock n s).enableRefused = s.enableRefused ∧ (lock n s).gens = s.gens ∧ (lock n s).stores = s.stores ∧
    (lock n s).readers = s.readers ∧ (lock n s).bankA = s.bankA ∧ (lock n s).bankB = s.bankB ∧
    (lock n s).bc = s.bc ∧ (lock n s).arb = s.arb ∧ (lock n s).txas = s.txas ∧ (lock n s).host = s.host ∧
    (lock n s).counters = s.counters ∧ (lock n s).windows = s.windows ∧ (lock n s).causes = s.causes ∧
    (lock n s).policies = s.policies ∧ (lock n s).tp = s.tp ∧ (lock n s).bus = s.bus ∧
    (lock n s).pending = s.pending ∧ (lock n s).received = s.received ∧ (lock n s).incoming = s.incoming := by
  refine ⟨?_, ?_, ?_, ?_, ?_, ?_, ?_, ?_, ?_, ?_, ?_, ?_, ?_, ?_, ?_, ?_, ?_, ?_, ?_⟩
  all_goals unfold lock
  all_goals (try dsimp only [])
  all_goals (repeat' split)
  all_goals simp

/-- `receiveStop` leaves every other part of the state. -/
@[simp] theorem receiveStop_frame (n : Line) (s : State) :
    (receiveStop n s).lines = s.lines ∧ (receiveStop n s).enableRefused = s.enableRefused ∧
    (receiveStop n s).gens = s.gens ∧ (receiveStop n s).readers = s.readers ∧ (receiveStop n s).bankA = s.bankA ∧
    (receiveStop n s).bankB = s.bankB ∧ (receiveStop n s).bc = s.bc ∧ (receiveStop n s).arb = s.arb ∧
    (receiveStop n s).txas = s.txas ∧ (receiveStop n s).host = s.host ∧ (receiveStop n s).counters = s.counters ∧
    (receiveStop n s).causes = s.causes ∧ (receiveStop n s).policies = s.policies ∧ (receiveStop n s).evq = s.evq ∧
    (receiveStop n s).irq = s.irq ∧ (receiveStop n s).tp = s.tp ∧ (receiveStop n s).bus = s.bus ∧
    (receiveStop n s).pending = s.pending ∧ (receiveStop n s).received = s.received ∧
    (receiveStop n s).incoming = s.incoming := by
  refine ⟨?_, ?_, ?_, ?_, ?_, ?_, ?_, ?_, ?_, ?_, ?_, ?_, ?_, ?_, ?_, ?_, ?_, ?_, ?_, ?_⟩
  all_goals unfold receiveStop
  all_goals (try dsimp only [])
  all_goals (repeat' split)
  all_goals simp

/-- `transmitStop` leaves every other part of the state. -/
@[simp] theorem transmitStop_frame (n : Line) (s : State) :
    (transmitStop n s).lines = s.lines ∧ (transmitStop n s).enableRefused = s.enableRefused ∧
    (transmitStop n s).gens = s.gens ∧ (transmitStop n s).bankA = s.bankA ∧ (transmitStop n s).bankB = s.bankB ∧
    (transmitStop n s).host = s.host ∧ (transmitStop n s).counters = s.counters ∧
    (transmitStop n s).windows = s.windows ∧ (transmitStop n s).causes = s.causes ∧
    (transmitStop n s).policies = s.policies ∧ (transmitStop n s).tp = s.tp ∧ (transmitStop n s).bus = s.bus ∧
    (transmitStop n s).pending = s.pending ∧ (transmitStop n s).received = s.received ∧
    (transmitStop n s).incoming = s.incoming := by
  refine ⟨?_, ?_, ?_, ?_, ?_, ?_, ?_, ?_, ?_, ?_, ?_, ?_, ?_, ?_, ?_⟩
  all_goals unfold transmitStop
  all_goals (try dsimp only [])
  all_goals (repeat' split)
  all_goals simp

/-- `stopLine` leaves every other part of the state. -/
@[simp] theorem stopLine_frame (n : Line) (s : State) :
    (stopLine n s).lines = s.lines ∧ (stopLine n s).enableRefused = s.enableRefused ∧
    (stopLine n s).gens = s.gens ∧ (stopLine n s).bankA = s.bankA ∧ (stopLine n s).bankB = s.bankB ∧
    (stopLine n s).host = s.host ∧ (stopLine n s).counters = s.counters ∧ (stopLine n s).causes = s.causes ∧
    (stopLine n s).policies = s.policies ∧ (stopLine n s).tp = s.tp ∧ (stopLine n s).bus = s.bus ∧
    (stopLine n s).pending = s.pending ∧ (stopLine n s).received = s.received ∧
    (stopLine n s).incoming = s.incoming := by
  refine ⟨?_, ?_, ?_, ?_, ?_, ?_, ?_, ?_, ?_, ?_, ?_, ?_, ?_, ?_⟩
  all_goals unfold stopLine
  all_goals (try dsimp only [])
  all_goals (repeat' split)
  all_goals simp

/-- `stopIfRunning` leaves every other part of the state. -/
@[simp] theorem stopIfRunning_frame (n : Line) (s : State) :
    (stopIfRunning n s).lines = s.lines ∧ (stopIfRunning n s).enableRefused = s.enableRefused ∧
    (stopIfRunning n s).gens = s.gens ∧ (stopIfRunning n s).bankA = s.bankA ∧ (stopIfRunning n s).bankB = s.bankB ∧
    (stopIfRunning n s).host = s.host ∧ (stopIfRunning n s).counters = s.counters ∧
    (stopIfRunning n s).causes = s.causes ∧ (stopIfRunning n s).policies = s.policies ∧
    (stopIfRunning n s).tp = s.tp ∧ (stopIfRunning n s).bus = s.bus ∧ (stopIfRunning n s).pending = s.pending ∧
    (stopIfRunning n s).received = s.received ∧ (stopIfRunning n s).incoming = s.incoming := by
  refine ⟨?_, ?_, ?_, ?_, ?_, ?_, ?_, ?_, ?_, ?_, ?_, ?_, ?_, ?_⟩
  all_goals unfold stopIfRunning
  all_goals (try dsimp only [])
  all_goals (repeat' split)
  all_goals simp

/-- `enterReceiver` leaves every other part of the state. -/
@[simp] theorem enterReceiver_frame (n : Line) (r : Receiver) (s : State) :
    (enterReceiver n r s).enableRefused = s.enableRefused ∧ (enterReceiver n r s).gens = s.gens ∧
    (enterReceiver n r s).stores = s.stores ∧ (enterReceiver n r s).readers = s.readers ∧
    (enterReceiver n r s).bankA = s.bankA ∧ (enterReceiver n r s).bankB = s.bankB ∧
    (enterReceiver n r s).bc = s.bc ∧ (enterReceiver n r s).arb = s.arb ∧ (enterReceiver n r s).txas = s.txas ∧
    (enterReceiver n r s).host = s.host ∧ (enterReceiver n r s).counters = s.counters ∧
    (enterReceiver n r s).windows = s.windows ∧ (enterReceiver n r s).causes = s.causes ∧
    (enterReceiver n r s).policies = s.policies ∧ (enterReceiver n r s).evq = s.evq ∧
    (enterReceiver n r s).irq = s.irq ∧ (enterReceiver n r s).tp = s.tp ∧ (enterReceiver n r s).bus = s.bus ∧
    (enterReceiver n r s).pending = s.pending ∧ (enterReceiver n r s).received = s.received ∧
    (enterReceiver n r s).incoming = s.incoming := by
  refine ⟨?_, ?_, ?_, ?_, ?_, ?_, ?_, ?_, ?_, ?_, ?_, ?_, ?_, ?_, ?_, ?_, ?_, ?_, ?_, ?_, ?_⟩
  all_goals unfold enterReceiver
  all_goals (try dsimp only [])
  all_goals (repeat' split)
  all_goals simp

/-- `reportLost` leaves every other part of the state. -/
@[simp] theorem reportLost_frame (n : Line) (s : State) :
    (reportLost n s).lines = s.lines ∧ (reportLost n s).enableRefused = s.enableRefused ∧
    (reportLost n s).gens = s.gens ∧ (reportLost n s).stores = s.stores ∧ (reportLost n s).readers = s.readers ∧
    (reportLost n s).bankA = s.bankA ∧ (reportLost n s).bankB = s.bankB ∧ (reportLost n s).bc = s.bc ∧
    (reportLost n s).arb = s.arb ∧ (reportLost n s).host = s.host ∧ (reportLost n s).counters = s.counters ∧
    (reportLost n s).windows = s.windows ∧ (reportLost n s).policies = s.policies ∧ (reportLost n s).tp = s.tp ∧
    (reportLost n s).bus = s.bus ∧ (reportLost n s).pending = s.pending ∧ (reportLost n s).received = s.received ∧
    (reportLost n s).incoming = s.incoming := by
  refine ⟨?_, ?_, ?_, ?_, ?_, ?_, ?_, ?_, ?_, ?_, ?_, ?_, ?_, ?_, ?_, ?_, ?_, ?_⟩
  all_goals unfold reportLost
  all_goals (try dsimp only [])
  all_goals (repeat' split)
  all_goals simp

/-- `enterLost` leaves every other part of the state. -/
@[simp] theorem enterLost_frame (n : Line) (tx : Bool) (s : State) :
    (enterLost n tx s).enableRefused = s.enableRefused ∧ (enterLost n tx s).gens = s.gens ∧
    (enterLost n tx s).bankA = s.bankA ∧ (enterLost n tx s).bankB = s.bankB ∧ (enterLost n tx s).host = s.host ∧
    (enterLost n tx s).policies = s.policies ∧ (enterLost n tx s).tp = s.tp ∧ (enterLost n tx s).bus = s.bus ∧
    (enterLost n tx s).pending = s.pending ∧ (enterLost n tx s).received = s.received ∧
    (enterLost n tx s).incoming = s.incoming := by
  refine ⟨?_, ?_, ?_, ?_, ?_, ?_, ?_, ?_, ?_, ?_, ?_⟩
  all_goals unfold enterLost
  all_goals (try dsimp only [])
  all_goals (repeat' split)
  all_goals simp

end Sys2Proof.Machine
end

