-- ==== Sys2Proof/Laws/CommandFrames.lean ====
section
/-! SUPPORT. The frames of the commands: which parts of the state each one leaves. -/

namespace Sys2Proof.Machine

/-- `reportSlip` leaves every other part of the state. -/
@[simp] theorem reportSlip_frame (y x : Line) (sl : Slip) (s : State) :
    (reportSlip y x sl s).lines = s.lines ∧ (reportSlip y x sl s).enableRefused = s.enableRefused ∧
    (reportSlip y x sl s).gens = s.gens ∧ (reportSlip y x sl s).stores = s.stores ∧
    (reportSlip y x sl s).readers = s.readers ∧ (reportSlip y x sl s).bankA = s.bankA ∧
    (reportSlip y x sl s).bankB = s.bankB ∧ (reportSlip y x sl s).bc = s.bc ∧ (reportSlip y x sl s).arb = s.arb ∧
    (reportSlip y x sl s).txas = s.txas ∧ (reportSlip y x sl s).host = s.host ∧
    (reportSlip y x sl s).windows = s.windows ∧ (reportSlip y x sl s).causes = s.causes ∧
    (reportSlip y x sl s).policies = s.policies ∧ (reportSlip y x sl s).tp = s.tp ∧
    (reportSlip y x sl s).bus = s.bus ∧ (reportSlip y x sl s).pending = s.pending ∧
    (reportSlip y x sl s).received = s.received ∧ (reportSlip y x sl s).incoming = s.incoming := by
  refine ⟨?_, ?_, ?_, ?_, ?_, ?_, ?_, ?_, ?_, ?_, ?_, ?_, ?_, ?_, ?_, ?_, ?_, ?_, ?_⟩
  all_goals unfold reportSlip
  all_goals (try dsimp only [])
  all_goals (repeat' split)
  all_goals simp

/-- `selectSources` leaves every other part of the state. -/
@[simp] theorem selectSources_frame (y : Line) (p : List MapEntry) (s : State) :
    (selectSources y p s).lines = s.lines ∧ (selectSources y p s).enableRefused = s.enableRefused ∧
    (selectSources y p s).gens = s.gens ∧ (selectSources y p s).bankA = s.bankA ∧
    (selectSources y p s).bankB = s.bankB ∧ (selectSources y p s).bc = s.bc ∧ (selectSources y p s).arb = s.arb ∧
    (selectSources y p s).host = s.host ∧ (selectSources y p s).windows = s.windows ∧
    (selectSources y p s).causes = s.causes ∧ (selectSources y p s).policies = s.policies ∧
    (selectSources y p s).tp = s.tp ∧ (selectSources y p s).bus = s.bus ∧
    (selectSources y p s).pending = s.pending ∧ (selectSources y p s).received = s.received ∧
    (selectSources y p s).incoming = s.incoming := by
  refine ⟨?_, ?_, ?_, ?_, ?_, ?_, ?_, ?_, ?_, ?_, ?_, ?_, ?_, ?_, ?_, ?_⟩
  all_goals unfold selectSources
  all_goals (try dsimp only [])
  all_goals (repeat' split)
  all_goals (try with_reducible rfl)
  all_goals
    refine (foldl_keeps _ _ (fun t a => ?_) _ _).trans ?_ <;> (try dsimp only []) <;> (repeat' split) <;> simp

/-- `fixFrame` leaves every other part of the state. -/
@[simp] theorem fixFrame_frame (y : Line) (s : State) :
    (fixFrame y s).enableRefused = s.enableRefused ∧ (fixFrame y s).gens = s.gens ∧
    (fixFrame y s).stores = s.stores ∧ (fixFrame y s).readers = s.readers ∧ (fixFrame y s).bankA = s.bankA ∧
    (fixFrame y s).bankB = s.bankB ∧ (fixFrame y s).bc = s.bc ∧ (fixFrame y s).arb = s.arb ∧
    (fixFrame y s).host = s.host ∧ (fixFrame y s).counters = s.counters ∧ (fixFrame y s).windows = s.windows ∧
    (fixFrame y s).causes = s.causes ∧ (fixFrame y s).policies = s.policies ∧ (fixFrame y s).evq = s.evq ∧
    (fixFrame y s).irq = s.irq ∧ (fixFrame y s).tp = s.tp ∧ (fixFrame y s).bus = s.bus ∧
    (fixFrame y s).pending = s.pending ∧ (fixFrame y s).received = s.received ∧
    (fixFrame y s).incoming = s.incoming := by
  refine ⟨?_, ?_, ?_, ?_, ?_, ?_, ?_, ?_, ?_, ?_, ?_, ?_, ?_, ?_, ?_, ?_, ?_, ?_, ?_, ?_⟩
  all_goals unfold fixFrame
  all_goals (try dsimp only [])
  all_goals (repeat' split)
  all_goals simp

/-- `beginFrame` leaves every other part of the state. -/
@[simp] theorem beginFrame_frame (n : Line) (s : State) :
    (beginFrame n s).lines = s.lines ∧ (beginFrame n s).enableRefused = s.enableRefused ∧
    (beginFrame n s).gens = s.gens ∧ (beginFrame n s).stores = s.stores ∧ (beginFrame n s).readers = s.readers ∧
    (beginFrame n s).bankA = s.bankA ∧ (beginFrame n s).bankB = s.bankB ∧ (beginFrame n s).bc = s.bc ∧
    (beginFrame n s).arb = s.arb ∧ (beginFrame n s).txas = s.txas ∧ (beginFrame n s).host = s.host ∧
    (beginFrame n s).counters = s.counters ∧ (beginFrame n s).windows = s.windows ∧
    (beginFrame n s).causes = s.causes ∧ (beginFrame n s).policies = s.policies ∧ (beginFrame n s).evq = s.evq ∧
    (beginFrame n s).irq = s.irq ∧ (beginFrame n s).tp = s.tp ∧ (beginFrame n s).bus = s.bus ∧
    (beginFrame n s).pending = s.pending ∧ (beginFrame n s).incoming = s.incoming := by
  refine ⟨?_, ?_, ?_, ?_, ?_, ?_, ?_, ?_, ?_, ?_, ?_, ?_, ?_, ?_, ?_, ?_, ?_, ?_, ?_, ?_, ?_⟩
  all_goals unfold beginFrame
  all_goals (try dsimp only [])
  all_goals (repeat' split)
  all_goals simp

/-- `storeFormed` leaves every other part of the state. -/
@[simp] theorem storeFormed_frame (n : Line) (bits : List Bool) (s : State) :
    (storeFormed n bits s).lines = s.lines ∧ (storeFormed n bits s).enableRefused = s.enableRefused ∧
    (storeFormed n bits s).gens = s.gens ∧ (storeFormed n bits s).readers = s.readers ∧
    (storeFormed n bits s).bankA = s.bankA ∧ (storeFormed n bits s).bankB = s.bankB ∧
    (storeFormed n bits s).bc = s.bc ∧ (storeFormed n bits s).arb = s.arb ∧ (storeFormed n bits s).txas = s.txas ∧
    (storeFormed n bits s).host = s.host ∧ (storeFormed n bits s).counters = s.counters ∧
    (storeFormed n bits s).windows = s.windows ∧ (storeFormed n bits s).causes = s.causes ∧
    (storeFormed n bits s).policies = s.policies ∧ (storeFormed n bits s).evq = s.evq ∧
    (storeFormed n bits s).irq = s.irq ∧ (storeFormed n bits s).tp = s.tp ∧ (storeFormed n bits s).bus = s.bus ∧
    (storeFormed n bits s).pending = s.pending ∧ (storeFormed n bits s).received = s.received ∧
    (storeFormed n bits s).incoming = s.incoming := by
  refine ⟨?_, ?_, ?_, ?_, ?_, ?_, ?_, ?_, ?_, ?_, ?_, ?_, ?_, ?_, ?_, ?_, ?_, ?_, ?_, ?_, ?_⟩
  all_goals unfold storeFormed
  all_goals (try dsimp only [])
  all_goals (repeat' split)
  all_goals simp

/-- `bitClock` leaves every other part of the state. -/
@[simp] theorem bitClock_frame (n : Line) (b : Bool) (s : State) :
    (bitClock n b s).lines = s.lines ∧ (bitClock n b s).enableRefused = s.enableRefused ∧
    (bitClock n b s).gens = s.gens ∧ (bitClock n b s).readers = s.readers ∧ (bitClock n b s).bankA = s.bankA ∧
    (bitClock n b s).bankB = s.bankB ∧ (bitClock n b s).bc = s.bc ∧ (bitClock n b s).arb = s.arb ∧
    (bitClock n b s).txas = s.txas ∧ (bitClock n b s).host = s.host ∧ (bitClock n b s).counters = s.counters ∧
    (bitClock n b s).windows = s.windows ∧ (bitClock n b s).causes = s.causes ∧
    (bitClock n b s).policies = s.policies ∧ (bitClock n b s).evq = s.evq ∧ (bitClock n b s).irq = s.irq ∧
    (bitClock n b s).tp = s.tp ∧ (bitClock n b s).bus = s.bus ∧ (bitClock n b s).pending = s.pending ∧
    (bitClock n b s).incoming = s.incoming := by
  refine ⟨?_, ?_, ?_, ?_, ?_, ?_, ?_, ?_, ?_, ?_, ?_, ?_, ?_, ?_, ?_, ?_, ?_, ?_, ?_, ?_⟩
  all_goals unfold bitClock
  all_goals (try dsimp only [])
  all_goals (repeat' split)
  all_goals simp

/-- `bitClocks` leaves every other part of the state. -/
@[simp] theorem bitClocks_frame (n : Line) (bits : List Bool) (s : State) :
    (bitClocks n bits s).lines = s.lines ∧ (bitClocks n bits s).enableRefused = s.enableRefused ∧
    (bitClocks n bits s).gens = s.gens ∧ (bitClocks n bits s).readers = s.readers ∧
    (bitClocks n bits s).bankA = s.bankA ∧ (bitClocks n bits s).bankB = s.bankB ∧ (bitClocks n bits s).bc = s.bc ∧
    (bitClocks n bits s).arb = s.arb ∧ (bitClocks n bits s).txas = s.txas ∧ (bitClocks n bits s).host = s.host ∧
    (bitClocks n bits s).counters = s.counters ∧ (bitClocks n bits s).windows = s.windows ∧
    (bitClocks n bits s).causes = s.causes ∧ (bitClocks n bits s).policies = s.policies ∧
    (bitClocks n bits s).evq = s.evq ∧ (bitClocks n bits s).irq = s.irq ∧ (bitClocks n bits s).tp = s.tp ∧
    (bitClocks n bits s).bus = s.bus ∧ (bitClocks n bits s).pending = s.pending ∧
    (bitClocks n bits s).incoming = s.incoming := by
  refine ⟨?_, ?_, ?_, ?_, ?_, ?_, ?_, ?_, ?_, ?_, ?_, ?_, ?_, ?_, ?_, ?_, ?_, ?_, ?_, ?_⟩
  all_goals unfold bitClocks
  all_goals
    refine (foldl_keeps _ _ (fun t a => ?_) _ _).trans ?_ <;> (try dsimp only []) <;> (repeat' split) <;> simp

/-- `tick` leaves every other part of the state. -/
@[simp] theorem tick_frame (s : State) :
    (tick s).lines = s.lines ∧ (tick s).enableRefused = s.enableRefused ∧ (tick s).gens = s.gens ∧
    (tick s).readers = s.readers ∧ (tick s).bankA = s.bankA ∧ (tick s).bankB = s.bankB ∧ (tick s).bc = s.bc ∧
    (tick s).arb = s.arb ∧ (tick s).txas = s.txas ∧ (tick s).host = s.host ∧ (tick s).counters = s.counters ∧
    (tick s).windows = s.windows ∧ (tick s).causes = s.causes ∧ (tick s).policies = s.policies ∧
    (tick s).evq = s.evq ∧ (tick s).irq = s.irq ∧ (tick s).tp = s.tp ∧ (tick s).bus = s.bus ∧
    (tick s).pending = s.pending := by
  refine ⟨?_, ?_, ?_, ?_, ?_, ?_, ?_, ?_, ?_, ?_, ?_, ?_, ?_, ?_, ?_, ?_, ?_, ?_, ?_⟩
  all_goals unfold tick
  all_goals (try dsimp only [])
  all_goals (repeat' split)
  all_goals simp

/-- `toVerify` leaves every other part of the state. -/
@[simp] theorem toVerify_frame (n : Line) (s : State) :
    (toVerify n s).enableRefused = s.enableRefused ∧ (toVerify n s).gens = s.gens ∧
    (toVerify n s).stores = s.stores ∧ (toVerify n s).readers = s.readers ∧ (toVerify n s).bankA = s.bankA ∧
    (toVerify n s).bankB = s.bankB ∧ (toVerify n s).bc = s.bc ∧ (toVerify n s).arb = s.arb ∧
    (toVerify n s).txas = s.txas ∧ (toVerify n s).host = s.host ∧ (toVerify n s).counters = s.counters ∧
    (toVerify n s).windows = s.windows ∧ (toVerify n s).causes = s.causes ∧ (toVerify n s).policies = s.policies ∧
    (toVerify n s).evq = s.evq ∧ (toVerify n s).irq = s.irq ∧ (toVerify n s).tp = s.tp ∧
    (toVerify n s).bus = s.bus ∧ (toVerify n s).pending = s.pending ∧ (toVerify n s).incoming = s.incoming := by
  refine ⟨?_, ?_, ?_, ?_, ?_, ?_, ?_, ?_, ?_, ?_, ?_, ?_, ?_, ?_, ?_, ?_, ?_, ?_, ?_, ?_⟩
  all_goals unfold toVerify
  all_goals (try dsimp only [])
  all_goals (repeat' split)
  all_goals simp

/-- `firstArrival` leaves every other part of the state. -/
@[simp] theorem firstArrival_frame (n : Line) (s : State) :
    (firstArrival n s).enableRefused = s.enableRefused ∧ (firstArrival n s).gens = s.gens ∧
    (firstArrival n s).stores = s.stores ∧ (firstArrival n s).readers = s.readers ∧
    (firstArrival n s).bankA = s.bankA ∧ (firstArrival n s).bankB = s.bankB ∧ (firstArrival n s).bc = s.bc ∧
    (firstArrival n s).arb = s.arb ∧ (firstArrival n s).txas = s.txas ∧ (firstArrival n s).host = s.host ∧
    (firstArrival n s).counters = s.counters ∧ (firstArrival n s).windows = s.windows ∧
    (firstArrival n s).causes = s.causes ∧ (firstArrival n s).policies = s.policies ∧
    (firstArrival n s).evq = s.evq ∧ (firstArrival n s).irq = s.irq ∧ (firstArrival n s).tp = s.tp ∧
    (firstArrival n s).bus = s.bus ∧ (firstArrival n s).pending = s.pending ∧
    (firstArrival n s).incoming = s.incoming := by
  refine ⟨?_, ?_, ?_, ?_, ?_, ?_, ?_, ?_, ?_, ?_, ?_, ?_, ?_, ?_, ?_, ?_, ?_, ?_, ?_, ?_⟩
  all_goals unfold firstArrival
  all_goals (try dsimp only [])
  all_goals (repeat' split)
  all_goals simp

/-- `expire` leaves every other part of the state. -/
@[simp] theorem expire_frame (n : Line) (tx : Bool) (s : State) :
    (expire n tx s).enableRefused = s.enableRefused ∧ (expire n tx s).gens = s.gens ∧
    (expire n tx s).bankA = s.bankA ∧ (expire n tx s).bankB = s.bankB ∧ (expire n tx s).host = s.host ∧
    (expire n tx s).policies = s.policies ∧ (expire n tx s).tp = s.tp ∧ (expire n tx s).bus = s.bus ∧
    (expire n tx s).pending = s.pending ∧ (expire n tx s).received = s.received ∧
    (expire n tx s).incoming = s.incoming := by
  refine ⟨?_, ?_, ?_, ?_, ?_, ?_, ?_, ?_, ?_, ?_, ?_⟩
  all_goals unfold expire
  all_goals (try dsimp only [])
  all_goals (repeat' split)
  all_goals simp

/-- `rearm` leaves every other part of the state. -/
@[simp] theorem rearm_frame (n : Line) (e : Nat) (s : State) :
    (rearm n e s).enableRefused = s.enableRefused ∧ (rearm n e s).gens = s.gens ∧ (rearm n e s).stores = s.stores ∧
    (rearm n e s).readers = s.readers ∧ (rearm n e s).bankA = s.bankA ∧ (rearm n e s).bankB = s.bankB ∧
    (rearm n e s).bc = s.bc ∧ (rearm n e s).arb = s.arb ∧ (rearm n e s).txas = s.txas ∧
    (rearm n e s).host = s.host ∧ (rearm n e s).counters = s.counters ∧ (rearm n e s).windows = s.windows ∧
    (rearm n e s).causes = s.causes ∧ (rearm n e s).policies = s.policies ∧ (rearm n e s).evq = s.evq ∧
    (rearm n e s).irq = s.irq ∧ (rearm n e s).tp = s.tp ∧ (rearm n e s).bus = s.bus ∧
    (rearm n e s).pending = s.pending ∧ (rearm n e s).incoming = s.incoming := by
  refine ⟨?_, ?_, ?_, ?_, ?_, ?_, ?_, ?_, ?_, ?_, ?_, ?_, ?_, ?_, ?_, ?_, ?_, ?_, ?_, ?_⟩
  all_goals unfold rearm
  all_goals (try dsimp only [])
  all_goals (repeat' split)
  all_goals simp

/-- `verifyArrival` leaves every other part of the state. -/
@[simp] theorem verifyArrival_frame (n : Line) (sm : List Bool) (tx : Bool) (s : State) :
    (verifyArrival n sm tx s).enableRefused = s.enableRefused ∧ (verifyArrival n sm tx s).gens = s.gens ∧
    (verifyArrival n sm tx s).bankA = s.bankA ∧ (verifyArrival n sm tx s).bankB = s.bankB ∧
    (verifyArrival n sm tx s).host = s.host ∧ (verifyArrival n sm tx s).policies = s.policies ∧
    (verifyArrival n sm tx s).tp = s.tp ∧ (verifyArrival n sm tx s).bus = s.bus ∧
    (verifyArrival n sm tx s).pending = s.pending ∧ (verifyArrival n sm tx s).incoming = s.incoming := by
  refine ⟨?_, ?_, ?_, ?_, ?_, ?_, ?_, ?_, ?_, ?_⟩
  all_goals unfold verifyArrival
  all_goals (try dsimp only [])
  all_goals (repeat' split)
  all_goals simp

/-- `lockedArrival` leaves every other part of the state. -/
@[simp] theorem lockedArrival_frame (n : Line) (sm : List Bool) (tx : Bool) (s : State) :
    (lockedArrival n sm tx s).enableRefused = s.enableRefused ∧ (lockedArrival n sm tx s).gens = s.gens ∧
    (lockedArrival n sm tx s).bankA = s.bankA ∧ (lockedArrival n sm tx s).bankB = s.bankB ∧
    (lockedArrival n sm tx s).host = s.host ∧ (lockedArrival n sm tx s).policies = s.policies ∧
    (lockedArrival n sm tx s).tp = s.tp ∧ (lockedArrival n sm tx s).bus = s.bus ∧
    (lockedArrival n sm tx s).pending = s.pending ∧ (lockedArrival n sm tx s).incoming = s.incoming := by
  refine ⟨?_, ?_, ?_, ?_, ?_, ?_, ?_, ?_, ?_, ?_⟩
  all_goals unfold lockedArrival
  all_goals (try dsimp only [])
  all_goals (repeat' split)
  all_goals simp

/-- `judgeArrival` leaves every other part of the state. -/
@[simp] theorem judgeArrival_frame (n : Line) (sm : List Bool) (tx : Bool) (s : State) :
    (judgeArrival n sm tx s).enableRefused = s.enableRefused ∧ (judgeArrival n sm tx s).gens = s.gens ∧
    (judgeArrival n sm tx s).bankA = s.bankA ∧ (judgeArrival n sm tx s).bankB = s.bankB ∧
    (judgeArrival n sm tx s).host = s.host ∧ (judgeArrival n sm tx s).policies = s.policies ∧
    (judgeArrival n sm tx s).tp = s.tp ∧ (judgeArrival n sm tx s).bus = s.bus ∧
    (judgeArrival n sm tx s).pending = s.pending ∧ (judgeArrival n sm tx s).incoming = s.incoming := by
  refine ⟨?_, ?_, ?_, ?_, ?_, ?_, ?_, ?_, ?_, ?_⟩
  all_goals unfold judgeArrival
  all_goals (try dsimp only [])
  all_goals (repeat' split)
  all_goals simp

/-- `syncArrival` leaves every other part of the state. -/
@[simp] theorem syncArrival_frame (n : Line) (sm : List Bool) (tx : Bool) (tn : List Nat) (s : State) :
    (syncArrival n sm tx tn s).enableRefused = s.enableRefused ∧ (syncArrival n sm tx tn s).gens = s.gens ∧
    (syncArrival n sm tx tn s).bankA = s.bankA ∧ (syncArrival n sm tx tn s).bankB = s.bankB ∧
    (syncArrival n sm tx tn s).host = s.host ∧ (syncArrival n sm tx tn s).policies = s.policies ∧
    (syncArrival n sm tx tn s).tp = s.tp ∧ (syncArrival n sm tx tn s).bus = s.bus ∧
    (syncArrival n sm tx tn s).pending = s.pending ∧ (syncArrival n sm tx tn s).incoming = s.incoming := by
  refine ⟨?_, ?_, ?_, ?_, ?_, ?_, ?_, ?_, ?_, ?_⟩
  all_goals unfold syncArrival
  all_goals (try dsimp only [])
  all_goals (repeat' split)
  all_goals simp

/-- `timerExpiry` leaves every other part of the state. -/
@[simp] theorem timerExpiry_frame (n : Line) (sm : List Bool) (tx : Bool) (tn : List Nat) (s : State) :
    (timerExpiry n sm tx tn s).enableRefused = s.enableRefused ∧ (timerExpiry n sm tx tn s).gens = s.gens ∧
    (timerExpiry n sm tx tn s).bankA = s.bankA ∧ (timerExpiry n sm tx tn s).bankB = s.bankB ∧
    (timerExpiry n sm tx tn s).host = s.host ∧ (timerExpiry n sm tx tn s).policies = s.policies ∧
    (timerExpiry n sm tx tn s).tp = s.tp ∧ (timerExpiry n sm tx tn s).bus = s.bus ∧
    (timerExpiry n sm tx tn s).pending = s.pending ∧ (timerExpiry n sm tx tn s).incoming = s.incoming := by
  refine ⟨?_, ?_, ?_, ?_, ?_, ?_, ?_, ?_, ?_, ?_⟩
  all_goals unfold timerExpiry
  all_goals (try dsimp only [])
  all_goals (repeat' split)
  all_goals simp

/-- `receivePart` leaves every other part of the state. -/
@[simp] theorem receivePart_frame (n : Line) (s : State) :
    (receivePart n s).enableRefused = s.enableRefused ∧ (receivePart n s).gens = s.gens ∧
    (receivePart n s).readers = s.readers ∧ (receivePart n s).bankA = s.bankA ∧ (receivePart n s).bankB = s.bankB ∧
    (receivePart n s).bc = s.bc ∧ (receivePart n s).arb = s.arb ∧ (receivePart n s).policies = s.policies ∧
    (receivePart n s).tp = s.tp ∧ (receivePart n s).bus = s.bus ∧ (receivePart n s).pending = s.pending ∧
    (receivePart n s).incoming = s.incoming := by
  refine ⟨?_, ?_, ?_, ?_, ?_, ?_, ?_, ?_, ?_, ?_, ?_, ?_⟩
  all_goals unfold receivePart
  all_goals (try dsimp only [])
  all_goals (repeat' split)
  all_goals simp

/-- `takePart` leaves every other part of the state. -/
@[simp] theorem takePart_frame (p : Part) (s : State) :
    (takePart p s).enableRefused = s.enableRefused ∧ (takePart p s).gens = s.gens ∧
    (takePart p s).bankA = s.bankA ∧ (takePart p s).bankB = s.bankB ∧ (takePart p s).policies = s.policies ∧
    (takePart p s).tp = s.tp ∧ (takePart p s).bus = s.bus ∧ (takePart p s).pending = s.pending ∧
    (takePart p s).incoming = s.incoming := by
  refine ⟨?_, ?_, ?_, ?_, ?_, ?_, ?_, ?_, ?_⟩
  all_goals unfold takePart
  all_goals (try dsimp only [])
  all_goals (repeat' split)
  all_goals simp

/-- `frameStart` leaves every other part of the state. -/
@[simp] theorem frameStart_frame (g : Fin 2) (o : List Part) (s : State) :
    (frameStart g o s).enableRefused = s.enableRefused ∧ (frameStart g o s).bankA = s.bankA ∧
    (frameStart g o s).bankB = s.bankB ∧ (frameStart g o s).policies = s.policies ∧ (frameStart g o s).tp = s.tp ∧
    (frameStart g o s).bus = s.bus ∧ (frameStart g o s).pending = s.pending ∧
    (frameStart g o s).incoming = s.incoming := by
  refine ⟨?_, ?_, ?_, ?_, ?_, ?_, ?_, ?_⟩
  all_goals unfold frameStart
  all_goals
    refine (foldl_keeps _ _ (fun t a => ?_) _ _).trans ?_ <;> (try dsimp only []) <;> (repeat' split) <;> simp

/-- `frameBitClocks` leaves every other part of the state. -/
@[simp] theorem frameBitClocks_frame (g : Fin 2) (sm : Tab (List Bool) 8) (s : State) :
    (frameBitClocks g sm s).lines = s.lines ∧ (frameBitClocks g sm s).enableRefused = s.enableRefused ∧
    (frameBitClocks g sm s).gens = s.gens ∧ (frameBitClocks g sm s).readers = s.readers ∧
    (frameBitClocks g sm s).bankA = s.bankA ∧ (frameBitClocks g sm s).bankB = s.bankB ∧
    (frameBitClocks g sm s).bc = s.bc ∧ (frameBitClocks g sm s).arb = s.arb ∧
    (frameBitClocks g sm s).txas = s.txas ∧ (frameBitClocks g sm s).host = s.host ∧
    (frameBitClocks g sm s).counters = s.counters ∧ (frameBitClocks g sm s).windows = s.windows ∧
    (frameBitClocks g sm s).causes = s.causes ∧ (frameBitClocks g sm s).policies = s.policies ∧
    (frameBitClocks g sm s).evq = s.evq ∧ (frameBitClocks g sm s).irq = s.irq ∧ (frameBitClocks g sm s).tp = s.tp ∧
    (frameBitClocks g sm s).bus = s.bus ∧ (frameBitClocks g sm s).pending = s.pending ∧
    (frameBitClocks g sm s).incoming = s.incoming := by
  refine ⟨?_, ?_, ?_, ?_, ?_, ?_, ?_, ?_, ?_, ?_, ?_, ?_, ?_, ?_, ?_, ?_, ?_, ?_, ?_, ?_⟩
  all_goals unfold frameBitClocks
  all_goals
    refine (foldl_keeps _ _ (fun t a => ?_) _ _).trans ?_ <;> (try dsimp only []) <;> (repeat' split) <;> simp

/-- `fgFrameStart` leaves every other part of the state. -/
@[simp] theorem fgFrameStart_frame (g : Fin 2) (sm : Tab (List Bool) 8) (o : List Part) (tn : List Nat) (s : State) :
    (fgFrameStart g sm o tn s).enableRefused = s.enableRefused ∧ (fgFrameStart g sm o tn s).bankA = s.bankA ∧
    (fgFrameStart g sm o tn s).bankB = s.bankB ∧ (fgFrameStart g sm o tn s).policies = s.policies ∧
    (fgFrameStart g sm o tn s).tp = s.tp ∧ (fgFrameStart g sm o tn s).bus = s.bus ∧
    (fgFrameStart g sm o tn s).pending = s.pending ∧ (fgFrameStart g sm o tn s).incoming = s.incoming := by
  refine ⟨?_, ?_, ?_, ?_, ?_, ?_, ?_, ?_⟩
  all_goals unfold fgFrameStart
  all_goals (try dsimp only [])
  all_goals (repeat' split)
  all_goals simp

/-- `zeroLastWords` leaves every other part of the state. -/
@[simp] theorem zeroLastWords_frame (n : Line) (s : State) :
    (zeroLastWords n s).lines = s.lines ∧ (zeroLastWords n s).enableRefused = s.enableRefused ∧
    (zeroLastWords n s).gens = s.gens ∧ (zeroLastWords n s).stores = s.stores ∧
    (zeroLastWords n s).readers = s.readers ∧ (zeroLastWords n s).bankA = s.bankA ∧
    (zeroLastWords n s).bankB = s.bankB ∧ (zeroLastWords n s).bc = s.bc ∧ (zeroLastWords n s).arb = s.arb ∧
    (zeroLastWords n s).host = s.host ∧ (zeroLastWords n s).counters = s.counters ∧
    (zeroLastWords n s).windows = s.windows ∧ (zeroLastWords n s).causes = s.causes ∧
    (zeroLastWords n s).policies = s.policies ∧ (zeroLastWords n s).evq = s.evq ∧ (zeroLastWords n s).irq = s.irq ∧
    (zeroLastWords n s).tp = s.tp ∧ (zeroLastWords n s).bus = s.bus ∧ (zeroLastWords n s).pending = s.pending ∧
    (zeroLastWords n s).received = s.received ∧ (zeroLastWords n s).incoming = s.incoming := by
  refine ⟨?_, ?_, ?_, ?_, ?_, ?_, ?_, ?_, ?_, ?_, ?_, ?_, ?_, ?_, ?_, ?_, ?_, ?_, ?_, ?_, ?_⟩
  all_goals unfold zeroLastWords
  all_goals (try dsimp only [])
  all_goals (repeat' split)
  all_goals simp

/-- `enableLine` leaves every other part of the state. -/
@[simp] theorem enableLine_frame (n : Line) (s : State) :
    (enableLine n s).gens = s.gens ∧ (enableLine n s).stores = s.stores ∧ (enableLine n s).readers = s.readers ∧
    (enableLine n s).bankA = s.bankA ∧ (enableLine n s).bankB = s.bankB ∧ (enableLine n s).bc = s.bc ∧
    (enableLine n s).arb = s.arb ∧ (enableLine n s).host = s.host ∧ (enableLine n s).counters = s.counters ∧
    (enableLine n s).windows = s.windows ∧ (enableLine n s).causes = s.causes ∧
    (enableLine n s).policies = s.policies ∧ (enableLine n s).evq = s.evq ∧ (enableLine n s).irq = s.irq ∧
    (enableLine n s).tp = s.tp ∧ (enableLine n s).bus = s.bus ∧ (enableLine n s).pending = s.pending ∧
    (enableLine n s).received = s.received ∧ (enableLine n s).incoming = s.incoming := by
  refine ⟨?_, ?_, ?_, ?_, ?_, ?_, ?_, ?_, ?_, ?_, ?_, ?_, ?_, ?_, ?_, ?_, ?_, ?_, ?_⟩
  all_goals unfold enableLine
  all_goals (try dsimp only [])
  all_goals (repeat' split)
  all_goals simp

/-- `lineEnable` leaves every other part of the state. -/
@[simp] theorem lineEnable_frame (v : Word) (s : State) :
    (lineEnable v s).gens = s.gens ∧ (lineEnable v s).stores = s.stores ∧ (lineEnable v s).readers = s.readers ∧
    (lineEnable v s).bankA = s.bankA ∧ (lineEnable v s).bankB = s.bankB ∧ (lineEnable v s).bc = s.bc ∧
    (lineEnable v s).arb = s.arb ∧ (lineEnable v s).host = s.host ∧ (lineEnable v s).counters = s.counters ∧
    (lineEnable v s).windows = s.windows ∧ (lineEnable v s).causes = s.causes ∧
    (lineEnable v s).policies = s.policies ∧ (lineEnable v s).evq = s.evq ∧ (lineEnable v s).irq = s.irq ∧
    (lineEnable v s).tp = s.tp ∧ (lineEnable v s).bus = s.bus ∧ (lineEnable v s).pending = s.pending ∧
    (lineEnable v s).received = s.received ∧ (lineEnable v s).incoming = s.incoming := by
  refine ⟨?_, ?_, ?_, ?_, ?_, ?_, ?_, ?_, ?_, ?_, ?_, ?_, ?_, ?_, ?_, ?_, ?_, ?_, ?_⟩
  all_goals unfold lineEnable
  all_goals (try dsimp only [])
  all_goals (repeat' split)
  all_goals (try with_reducible rfl)
  all_goals
    refine (foldl_keeps _ _ (fun t a => ?_) _ _).trans ?_ <;> (try dsimp only []) <;> (repeat' split) <;> simp

/-- `disableLine` leaves every other part of the state. -/
@[simp] theorem disableLine_frame (n : Line) (s : State) :
    (disableLine n s).enableRefused = s.enableRefused ∧ (disableLine n s).gens = s.gens ∧
    (disableLine n s).bankA = s.bankA ∧ (disableLine n s).bankB = s.bankB ∧
    (disableLine n s).counters = s.counters ∧ (disableLine n s).causes = s.causes ∧
    (disableLine n s).policies = s.policies ∧ (disableLine n s).tp = s.tp ∧ (disableLine n s).bus = s.bus ∧
    (disableLine n s).pending = s.pending ∧ (disableLine n s).received = s.received ∧
    (disableLine n s).incoming = s.incoming := by
  refine ⟨?_, ?_, ?_, ?_, ?_, ?_, ?_, ?_, ?_, ?_, ?_, ?_⟩
  all_goals unfold disableLine
  all_goals (try dsimp only [])
  all_goals (repeat' split)
  all_goals simp

/-- `lineDisable` leaves every other part of the state. -/
@[simp] theorem lineDisable_frame (v : Word) (s : State) :
    (lineDisable v s).enableRefused = s.enableRefused ∧ (lineDisable v s).gens = s.gens ∧
    (lineDisable v s).bankA = s.bankA ∧ (lineDisable v s).bankB = s.bankB ∧
    (lineDisable v s).counters = s.counters ∧ (lineDisable v s).causes = s.causes ∧
    (lineDisable v s).policies = s.policies ∧ (lineDisable v s).tp = s.tp ∧ (lineDisable v s).bus = s.bus ∧
    (lineDisable v s).pending = s.pending ∧ (lineDisable v s).received = s.received ∧
    (lineDisable v s).incoming = s.incoming := by
  refine ⟨?_, ?_, ?_, ?_, ?_, ?_, ?_, ?_, ?_, ?_, ?_, ?_⟩
  all_goals unfold lineDisable
  all_goals (try dsimp only [])
  all_goals (repeat' split)
  all_goals (try with_reducible rfl)
  all_goals
    refine (foldl_keeps _ _ (fun t a => ?_) _ _).trans ?_ <;> (try dsimp only []) <;> (repeat' split) <;> simp

/-- `restartLine` leaves every other part of the state. -/
@[simp] theorem restartLine_frame (n : Line) (s : State) :
    (restartLine n s).enableRefused = s.enableRefused ∧ (restartLine n s).gens = s.gens ∧
    (restartLine n s).bankA = s.bankA ∧ (restartLine n s).bankB = s.bankB ∧
    (restartLine n s).counters = s.counters ∧ (restartLine n s).causes = s.causes ∧
    (restartLine n s).policies = s.policies ∧ (restartLine n s).tp = s.tp ∧ (restartLine n s).bus = s.bus ∧
    (restartLine n s).pending = s.pending ∧ (restartLine n s).received = s.received ∧
    (restartLine n s).incoming = s.incoming := by
  refine ⟨?_, ?_, ?_, ?_, ?_, ?_, ?_, ?_, ?_, ?_, ?_, ?_⟩
  all_goals unfold restartLine
  all_goals (try dsimp only [])
  all_goals (repeat' split)
  all_goals simp

/-- `lineRestart` leaves every other part of the state. -/
@[simp] theorem lineRestart_frame (v : Word) (s : State) :
    (lineRestart v s).enableRefused = s.enableRefused ∧ (lineRestart v s).gens = s.gens ∧
    (lineRestart v s).bankA = s.bankA ∧ (lineRestart v s).bankB = s.bankB ∧
    (lineRestart v s).counters = s.counters ∧ (lineRestart v s).causes = s.causes ∧
    (lineRestart v s).policies = s.policies ∧ (lineRestart v s).tp = s.tp ∧ (lineRestart v s).bus = s.bus ∧
    (lineRestart v s).pending = s.pending ∧ (lineRestart v s).received = s.received ∧
    (lineRestart v s).incoming = s.incoming := by
  refine ⟨?_, ?_, ?_, ?_, ?_, ?_, ?_, ?_, ?_, ?_, ?_, ?_⟩
  all_goals unfold lineRestart
  all_goals (try dsimp only [])
  all_goals (repeat' split)
  all_goals (try with_reducible rfl)
  all_goals
    refine (foldl_keeps _ _ (fun t a => ?_) _ _).trans ?_ <;> (try dsimp only []) <;> (repeat' split) <;> simp

/-- `haltLine` leaves every other part of the state. -/
@[simp] theorem haltLine_frame (n : Line) (s : State) :
    (haltLine n s).enableRefused = s.enableRefused ∧ (haltLine n s).gens = s.gens ∧
    (haltLine n s).bankA = s.bankA ∧ (haltLine n s).bankB = s.bankB ∧ (haltLine n s).host = s.host ∧
    (haltLine n s).counters = s.counters ∧ (haltLine n s).causes = s.causes ∧
    (haltLine n s).policies = s.policies ∧ (haltLine n s).tp = s.tp ∧ (haltLine n s).bus = s.bus ∧
    (haltLine n s).pending = s.pending ∧ (haltLine n s).received = s.received ∧
    (haltLine n s).incoming = s.incoming := by
  refine ⟨?_, ?_, ?_, ?_, ?_, ?_, ?_, ?_, ?_, ?_, ?_, ?_, ?_⟩
  all_goals unfold haltLine
  all_goals (try dsimp only [])
  all_goals (repeat' split)
  all_goals simp

/-- `stopGenerator` leaves every other part of the state. -/
@[simp] theorem stopGenerator_frame (g : Fin 2) (s : State) :
    (stopGenerator g s).enableRefused = s.enableRefused ∧ (stopGenerator g s).bankA = s.bankA ∧
    (stopGenerator g s).bankB = s.bankB ∧ (stopGenerator g s).host = s.host ∧
    (stopGenerator g s).counters = s.counters ∧ (stopGenerator g s).causes = s.causes ∧
    (stopGenerator g s).policies = s.policies ∧ (stopGenerator g s).tp = s.tp ∧ (stopGenerator g s).bus = s.bus ∧
    (stopGenerator g s).pending = s.pending ∧ (stopGenerator g s).received = s.received ∧
    (stopGenerator g s).incoming = s.incoming := by
  refine ⟨?_, ?_, ?_, ?_, ?_, ?_, ?_, ?_, ?_, ?_, ?_, ?_⟩
  all_goals unfold stopGenerator
  all_goals (try dsimp only [])
  all_goals (repeat' split)
  all_goals (try with_reducible rfl)
  all_goals
    refine (foldl_keeps _ _ (fun t a => ?_) _ _).trans ?_ <;> (try dsimp only []) <;> (repeat' split) <;> simp

/-- `stopIfCoded` leaves every other part of the state. -/
@[simp] theorem stopIfCoded_frame (v : Word) (g : Fin 2) (s : State) :
    (stopIfCoded v g s).enableRefused = s.enableRefused ∧ (stopIfCoded v g s).bankA = s.bankA ∧
    (stopIfCoded v g s).bankB = s.bankB ∧ (stopIfCoded v g s).host = s.host ∧
    (stopIfCoded v g s).counters = s.counters ∧ (stopIfCoded v g s).causes = s.causes ∧
    (stopIfCoded v g s).policies = s.policies ∧ (stopIfCoded v g s).tp = s.tp ∧ (stopIfCoded v g s).bus = s.bus ∧
    (stopIfCoded v g s).pending = s.pending ∧ (stopIfCoded v g s).received = s.received ∧
    (stopIfCoded v g s).incoming = s.incoming := by
  refine ⟨?_, ?_, ?_, ?_, ?_, ?_, ?_, ?_, ?_, ?_, ?_, ?_⟩
  all_goals unfold stopIfCoded
  all_goals (try dsimp only [])
  all_goals (repeat' split)
  all_goals simp

/-- `fgStop` leaves every other part of the state. -/
@[simp] theorem fgStop_frame (v : Word) (s : State) :
    (fgStop v s).enableRefused = s.enableRefused ∧ (fgStop v s).bankA = s.bankA ∧ (fgStop v s).bankB = s.bankB ∧
    (fgStop v s).host = s.host ∧ (fgStop v s).counters = s.counters ∧ (fgStop v s).causes = s.causes ∧
    (fgStop v s).policies = s.policies ∧ (fgStop v s).tp = s.tp ∧ (fgStop v s).bus = s.bus ∧
    (fgStop v s).pending = s.pending ∧ (fgStop v s).received = s.received ∧
    (fgStop v s).incoming = s.incoming := by
  refine ⟨?_, ?_, ?_, ?_, ?_, ?_, ?_, ?_, ?_, ?_, ?_, ?_⟩
  all_goals unfold fgStop
  all_goals (try dsimp only [])
  all_goals (repeat' split)
  all_goals simp

/-- `acceptCommit` leaves every other part of the state. -/
@[simp] theorem acceptCommit_frame (s : State) :
    (acceptCommit s).lines = s.lines ∧ (acceptCommit s).enableRefused = s.enableRefused ∧
    (acceptCommit s).gens = s.gens ∧ (acceptCommit s).stores = s.stores ∧ (acceptCommit s).readers = s.readers ∧
    (acceptCommit s).bankA = s.bankA ∧ (acceptCommit s).bankB = s.bankB ∧ (acceptCommit s).arb = s.arb ∧
    (acceptCommit s).txas = s.txas ∧ (acceptCommit s).host = s.host ∧ (acceptCommit s).counters = s.counters ∧
    (acceptCommit s).windows = s.windows ∧ (acceptCommit s).causes = s.causes ∧
    (acceptCommit s).policies = s.policies ∧ (acceptCommit s).tp = s.tp ∧ (acceptCommit s).bus = s.bus ∧
    (acceptCommit s).pending = s.pending ∧ (acceptCommit s).received = s.received ∧
    (acceptCommit s).incoming = s.incoming := by
  refine ⟨?_, ?_, ?_, ?_, ?_, ?_, ?_, ?_, ?_, ?_, ?_, ?_, ?_, ?_, ?_, ?_, ?_, ?_, ?_⟩
  all_goals unfold acceptCommit
  all_goals (try dsimp only [])
  all_goals (repeat' split)
  all_goals simp

/-- `commit` leaves every other part of the state. -/
@[simp] theorem commit_frame (s : State) :
    (commit s).lines = s.lines ∧ (commit s).enableRefused = s.enableRefused ∧ (commit s).gens = s.gens ∧
    (commit s).stores = s.stores ∧ (commit s).readers = s.readers ∧ (commit s).bankA = s.bankA ∧
    (commit s).bankB = s.bankB ∧ (commit s).arb = s.arb ∧ (commit s).txas = s.txas ∧ (commit s).host = s.host ∧
    (commit s).counters = s.counters ∧ (commit s).windows = s.windows ∧ (commit s).causes = s.causes ∧
    (commit s).policies = s.policies ∧ (commit s).tp = s.tp ∧ (commit s).bus = s.bus ∧
    (commit s).pending = s.pending ∧ (commit s).received = s.received ∧ (commit s).incoming = s.incoming := by
  refine ⟨?_, ?_, ?_, ?_, ?_, ?_, ?_, ?_, ?_, ?_, ?_, ?_, ?_, ?_, ?_, ?_, ?_, ?_, ?_⟩
  all_goals unfold commit
  all_goals (try dsimp only [])
  all_goals (repeat' split)
  all_goals simp

/-- `copy` leaves every other part of the state. -/
@[simp] theorem copy_frame (s : State) :
    (copy s).lines = s.lines ∧ (copy s).enableRefused = s.enableRefused ∧ (copy s).gens = s.gens ∧
    (copy s).stores = s.stores ∧ (copy s).readers = s.readers ∧ (copy s).bankA = s.bankA ∧
    (copy s).bankB = s.bankB ∧ (copy s).txas = s.txas ∧ (copy s).host = s.host ∧ (copy s).counters = s.counters ∧
    (copy s).windows = s.windows ∧ (copy s).causes = s.causes ∧ (copy s).policies = s.policies ∧
    (copy s).evq = s.evq ∧ (copy s).irq = s.irq ∧ (copy s).tp = s.tp ∧ (copy s).bus = s.bus ∧
    (copy s).pending = s.pending ∧ (copy s).received = s.received ∧ (copy s).incoming = s.incoming := by
  refine ⟨?_, ?_, ?_, ?_, ?_, ?_, ?_, ?_, ?_, ?_, ?_, ?_, ?_, ?_, ?_, ?_, ?_, ?_, ?_, ?_⟩
  all_goals unfold copy
  all_goals (try dsimp only [])
  all_goals (repeat' split)
  all_goals simp

/-- `freePort` leaves every other part of the state. -/
@[simp] theorem freePort_frame (s : State) :
    (freePort s).lines = s.lines ∧ (freePort s).enableRefused = s.enableRefused ∧ (freePort s).gens = s.gens ∧
    (freePort s).stores = s.stores ∧ (freePort s).readers = s.readers ∧ (freePort s).bankA = s.bankA ∧
    (freePort s).bankB = s.bankB ∧ (freePort s).bc = s.bc ∧ (freePort s).txas = s.txas ∧
    (freePort s).host = s.host ∧ (freePort s).counters = s.counters ∧ (freePort s).windows = s.windows ∧
    (freePort s).causes = s.causes ∧ (freePort s).policies = s.policies ∧ (freePort s).evq = s.evq ∧
    (freePort s).irq = s.irq ∧ (freePort s).tp = s.tp ∧ (freePort s).bus = s.bus ∧
    (freePort s).pending = s.pending ∧ (freePort s).received = s.received ∧
    (freePort s).incoming = s.incoming := by
  refine ⟨?_, ?_, ?_, ?_, ?_, ?_, ?_, ?_, ?_, ?_, ?_, ?_, ?_, ?_, ?_, ?_, ?_, ?_, ?_, ?_, ?_⟩
  all_goals unfold freePort
  all_goals (try dsimp only [])
  all_goals (repeat' split)
  all_goals simp

/-- `arbiterGrant` leaves every other part of the state. -/
@[simp] theorem arbiterGrant_frame (s : State) :
    (arbiterGrant s).lines = s.lines ∧ (arbiterGrant s).enableRefused = s.enableRefused ∧
    (arbiterGrant s).gens = s.gens ∧ (arbiterGrant s).stores = s.stores ∧ (arbiterGrant s).readers = s.readers ∧
    (arbiterGrant s).bankA = s.bankA ∧ (arbiterGrant s).bankB = s.bankB ∧ (arbiterGrant s).bc = s.bc ∧
    (arbiterGrant s).txas = s.txas ∧ (arbiterGrant s).host = s.host ∧ (arbiterGrant s).counters = s.counters ∧
    (arbiterGrant s).windows = s.windows ∧ (arbiterGrant s).causes = s.causes ∧
    (arbiterGrant s).policies = s.policies ∧ (arbiterGrant s).evq = s.evq ∧ (arbiterGrant s).irq = s.irq ∧
    (arbiterGrant s).bus = s.bus ∧ (arbiterGrant s).pending = s.pending ∧ (arbiterGrant s).received = s.received ∧
    (arbiterGrant s).incoming = s.incoming := by
  refine ⟨?_, ?_, ?_, ?_, ?_, ?_, ?_, ?_, ?_, ?_, ?_, ?_, ?_, ?_, ?_, ?_, ?_, ?_, ?_, ?_⟩
  all_goals unfold arbiterGrant
  all_goals (try dsimp only [])
  all_goals (repeat' split)
  all_goals simp

/-- `completeCopy` leaves every other part of the state. -/
@[simp] theorem completeCopy_frame (s : State) :
    (completeCopy s).lines = s.lines ∧ (completeCopy s).enableRefused = s.enableRefused ∧
    (completeCopy s).gens = s.gens ∧ (completeCopy s).stores = s.stores ∧ (completeCopy s).readers = s.readers ∧
    (completeCopy s).bankA = s.bankA ∧ (completeCopy s).bankB = s.bankB ∧ (completeCopy s).arb = s.arb ∧
    (completeCopy s).txas = s.txas ∧ (completeCopy s).host = s.host ∧ (completeCopy s).counters = s.counters ∧
    (completeCopy s).windows = s.windows ∧ (completeCopy s).causes = s.causes ∧
    (completeCopy s).policies = s.policies ∧ (completeCopy s).tp = s.tp ∧ (completeCopy s).bus = s.bus ∧
    (completeCopy s).pending = s.pending ∧ (completeCopy s).received = s.received ∧
    (completeCopy s).incoming = s.incoming := by
  refine ⟨?_, ?_, ?_, ?_, ?_, ?_, ?_, ?_, ?_, ?_, ?_, ?_, ?_, ?_, ?_, ?_, ?_, ?_, ?_⟩
  all_goals unfold completeCopy
  all_goals (try dsimp only [])
  all_goals (repeat' split)
  all_goals simp

/-- `advanceCopy` leaves every other part of the state. -/
@[simp] theorem advanceCopy_frame (s : State) :
    (advanceCopy s).lines = s.lines ∧ (advanceCopy s).enableRefused = s.enableRefused ∧
    (advanceCopy s).gens = s.gens ∧ (advanceCopy s).stores = s.stores ∧ (advanceCopy s).readers = s.readers ∧
    (advanceCopy s).bankA = s.bankA ∧ (advanceCopy s).bankB = s.bankB ∧ (advanceCopy s).txas = s.txas ∧
    (advanceCopy s).host = s.host ∧ (advanceCopy s).counters = s.counters ∧ (advanceCopy s).windows = s.windows ∧
    (advanceCopy s).causes = s.causes ∧ (advanceCopy s).policies = s.policies ∧ (advanceCopy s).tp = s.tp ∧
    (advanceCopy s).bus = s.bus ∧ (advanceCopy s).pending = s.pending ∧ (advanceCopy s).received = s.received ∧
    (advanceCopy s).incoming = s.incoming := by
  refine ⟨?_, ?_, ?_, ?_, ?_, ?_, ?_, ?_, ?_, ?_, ?_, ?_, ?_, ?_, ?_, ?_, ?_, ?_⟩
  all_goals unfold advanceCopy
  all_goals (try dsimp only [])
  all_goals (repeat' split)
  all_goals simp

/-- `tpEnd` leaves every other part of the state. -/
@[simp] theorem tpEnd_frame (r : TpResult) (s : State) :
    (tpEnd r s).lines = s.lines ∧ (tpEnd r s).enableRefused = s.enableRefused ∧ (tpEnd r s).gens = s.gens ∧
    (tpEnd r s).stores = s.stores ∧ (tpEnd r s).readers = s.readers ∧ (tpEnd r s).bankA = s.bankA ∧
    (tpEnd r s).bankB = s.bankB ∧ (tpEnd r s).bc = s.bc ∧ (tpEnd r s).arb = s.arb ∧ (tpEnd r s).txas = s.txas ∧
    (tpEnd r s).host = s.host ∧ (tpEnd r s).counters = s.counters ∧ (tpEnd r s).windows = s.windows ∧
    (tpEnd r s).causes = s.causes ∧ (tpEnd r s).policies = s.policies ∧ (tpEnd r s).evq = s.evq ∧
    (tpEnd r s).irq = s.irq ∧ (tpEnd r s).bus = s.bus ∧ (tpEnd r s).pending = s.pending ∧
    (tpEnd r s).received = s.received ∧ (tpEnd r s).incoming = s.incoming := by
  refine ⟨?_, ?_, ?_, ?_, ?_, ?_, ?_, ?_, ?_, ?_, ?_, ?_, ?_, ?_, ?_, ?_, ?_, ?_, ?_, ?_, ?_⟩
  all_goals unfold tpEnd
  all_goals (try dsimp only [])
  all_goals (repeat' split)
  all_goals simp

/-- `placeHostClaim` leaves every other part of the state. -/
@[simp] theorem placeHostClaim_frame (o : HostOp) (s : State) :
    (placeHostClaim o s).lines = s.lines ∧ (placeHostClaim o s).enableRefused = s.enableRefused ∧
    (placeHostClaim o s).gens = s.gens ∧ (placeHostClaim o s).stores = s.stores ∧
    (placeHostClaim o s).readers = s.readers ∧ (placeHostClaim o s).bankA = s.bankA ∧
    (placeHostClaim o s).bankB = s.bankB ∧ (placeHostClaim o s).bc = s.bc ∧ (placeHostClaim o s).txas = s.txas ∧
    (placeHostClaim o s).host = s.host ∧ (placeHostClaim o s).counters = s.counters ∧
    (placeHostClaim o s).windows = s.windows ∧ (placeHostClaim o s).causes = s.causes ∧
    (placeHostClaim o s).policies = s.policies ∧ (placeHostClaim o s).evq = s.evq ∧
    (placeHostClaim o s).irq = s.irq ∧ (placeHostClaim o s).bus = s.bus ∧
    (placeHostClaim o s).pending = s.pending ∧ (placeHostClaim o s).received = s.received ∧
    (placeHostClaim o s).incoming = s.incoming := by
  refine ⟨?_, ?_, ?_, ?_, ?_, ?_, ?_, ?_, ?_, ?_, ?_, ?_, ?_, ?_, ?_, ?_, ?_, ?_, ?_, ?_⟩
  all_goals unfold placeHostClaim
  all_goals (try dsimp only [])
  all_goals (repeat' split)
  all_goals simp

/-- `setData` leaves every other part of the state. -/
@[simp] theorem setData_frame (w : Tab Word 4) (s : State) :
    (setData w s).lines = s.lines ∧ (setData w s).enableRefused = s.enableRefused ∧ (setData w s).gens = s.gens ∧
    (setData w s).stores = s.stores ∧ (setData w s).readers = s.readers ∧ (setData w s).bankA = s.bankA ∧
    (setData w s).bankB = s.bankB ∧ (setData w s).bc = s.bc ∧ (setData w s).arb = s.arb ∧
    (setData w s).txas = s.txas ∧ (setData w s).host = s.host ∧ (setData w s).counters = s.counters ∧
    (setData w s).windows = s.windows ∧ (setData w s).causes = s.causes ∧ (setData w s).policies = s.policies ∧
    (setData w s).evq = s.evq ∧ (setData w s).irq = s.irq ∧ (setData w s).bus = s.bus ∧
    (setData w s).pending = s.pending ∧ (setData w s).received = s.received ∧
    (setData w s).incoming = s.incoming := by
  refine ⟨?_, ?_, ?_, ?_, ?_, ?_, ?_, ?_, ?_, ?_, ?_, ?_, ?_, ?_, ?_, ?_, ?_, ?_, ?_, ?_, ?_⟩
  all_goals unfold setData
  all_goals (try dsimp only [])
  all_goals (repeat' split)
  all_goals simp

/-- `readRecord` leaves every other part of the state. -/
@[simp] theorem readRecord_frame (s : State) :
    (readRecord s).lines = s.lines ∧ (readRecord s).enableRefused = s.enableRefused ∧
    (readRecord s).gens = s.gens ∧ (readRecord s).stores = s.stores ∧ (readRecord s).readers = s.readers ∧
    (readRecord s).bankA = s.bankA ∧ (readRecord s).bankB = s.bankB ∧ (readRecord s).bc = s.bc ∧
    (readRecord s).arb = s.arb ∧ (readRecord s).txas = s.txas ∧ (readRecord s).host = s.host ∧
    (readRecord s).windows = s.windows ∧ (readRecord s).causes = s.causes ∧ (readRecord s).policies = s.policies ∧
    (readRecord s).evq = s.evq ∧ (readRecord s).irq = s.irq ∧ (readRecord s).bus = s.bus ∧
    (readRecord s).pending = s.pending ∧ (readRecord s).received = s.received ∧
    (readRecord s).incoming = s.incoming := by
  refine ⟨?_, ?_, ?_, ?_, ?_, ?_, ?_, ?_, ?_, ?_, ?_, ?_, ?_, ?_, ?_, ?_, ?_, ?_, ?_, ?_⟩
  all_goals unfold readRecord readConfig readStatus readCounter
  all_goals (try dsimp only [])
  all_goals (repeat' split)
  all_goals simp

/-- `tpRead` leaves every other part of the state. -/
@[simp] theorem tpRead_frame (s : State) :
    (tpRead s).lines = s.lines ∧ (tpRead s).enableRefused = s.enableRefused ∧ (tpRead s).gens = s.gens ∧
    (tpRead s).stores = s.stores ∧ (tpRead s).readers = s.readers ∧ (tpRead s).bankA = s.bankA ∧
    (tpRead s).bankB = s.bankB ∧ (tpRead s).bc = s.bc ∧ (tpRead s).txas = s.txas ∧ (tpRead s).host = s.host ∧
    (tpRead s).windows = s.windows ∧ (tpRead s).causes = s.causes ∧ (tpRead s).policies = s.policies ∧
    (tpRead s).evq = s.evq ∧ (tpRead s).irq = s.irq ∧ (tpRead s).bus = s.bus ∧ (tpRead s).pending = s.pending ∧
    (tpRead s).received = s.received ∧ (tpRead s).incoming = s.incoming := by
  refine ⟨?_, ?_, ?_, ?_, ?_, ?_, ?_, ?_, ?_, ?_, ?_, ?_, ?_, ?_, ?_, ?_, ?_, ?_, ?_⟩
  all_goals unfold tpRead
  all_goals (try dsimp only [])
  all_goals (repeat' split)
  all_goals simp

/-- `moveGroup` leaves every other part of the state. -/
@[simp] theorem moveGroup_frame (n : Line) (s : State) :
    (moveGroup n s).lines = s.lines ∧ (moveGroup n s).enableRefused = s.enableRefused ∧
    (moveGroup n s).gens = s.gens ∧ (moveGroup n s).stores = s.stores ∧ (moveGroup n s).readers = s.readers ∧
    (moveGroup n s).bankA = s.bankA ∧ (moveGroup n s).bankB = s.bankB ∧ (moveGroup n s).bc = s.bc ∧
    (moveGroup n s).arb = s.arb ∧ (moveGroup n s).host = s.host ∧ (moveGroup n s).counters = s.counters ∧
    (moveGroup n s).windows = s.windows ∧ (moveGroup n s).policies = s.policies ∧ (moveGroup n s).tp = s.tp ∧
    (moveGroup n s).bus = s.bus ∧ (moveGroup n s).pending = s.pending ∧ (moveGroup n s).received = s.received ∧
    (moveGroup n s).incoming = s.incoming := by
  refine ⟨?_, ?_, ?_, ?_, ?_, ?_, ?_, ?_, ?_, ?_, ?_, ?_, ?_, ?_, ?_, ?_, ?_, ?_⟩
  all_goals unfold moveGroup
  all_goals (try dsimp only [])
  all_goals (repeat' split)
  all_goals simp

/-- `writeConfig` leaves every other part of the state. -/
@[simp] theorem writeConfig_frame (n : Line) (c : LineConfig) (s : State) :
    (writeConfig n c s).enableRefused = s.enableRefused ∧ (writeConfig n c s).gens = s.gens ∧
    (writeConfig n c s).stores = s.stores ∧ (writeConfig n c s).readers = s.readers ∧
    (writeConfig n c s).bankA = s.bankA ∧ (writeConfig n c s).bankB = s.bankB ∧ (writeConfig n c s).bc = s.bc ∧
    (writeConfig n c s).arb = s.arb ∧ (writeConfig n c s).counters = s.counters ∧
    (writeConfig n c s).windows = s.windows ∧ (writeConfig n c s).policies = s.policies ∧
    (writeConfig n c s).tp = s.tp ∧ (writeConfig n c s).bus = s.bus ∧ (writeConfig n c s).pending = s.pending ∧
    (writeConfig n c s).received = s.received ∧ (writeConfig n c s).incoming = s.incoming := by
  refine ⟨?_, ?_, ?_, ?_, ?_, ?_, ?_, ?_, ?_, ?_, ?_, ?_, ?_, ?_, ?_, ?_⟩
  all_goals unfold writeConfig
  all_goals (try dsimp only [])
  all_goals (repeat' split)
  all_goals simp

/-- `writeLineConfig` leaves every other part of the state. -/
@[simp] theorem writeLineConfig_frame (n : Line) (s : State) :
    (writeLineConfig n s).enableRefused = s.enableRefused ∧ (writeLineConfig n s).gens = s.gens ∧
    (writeLineConfig n s).stores = s.stores ∧ (writeLineConfig n s).readers = s.readers ∧
    (writeLineConfig n s).bankA = s.bankA ∧ (writeLineConfig n s).bankB = s.bankB ∧
    (writeLineConfig n s).bc = s.bc ∧ (writeLineConfig n s).arb = s.arb ∧
    (writeLineConfig n s).counters = s.counters ∧ (writeLineConfig n s).windows = s.windows ∧
    (writeLineConfig n s).policies = s.policies ∧ (writeLineConfig n s).bus = s.bus ∧
    (writeLineConfig n s).pending = s.pending ∧ (writeLineConfig n s).received = s.received ∧
    (writeLineConfig n s).incoming = s.incoming := by
  refine ⟨?_, ?_, ?_, ?_, ?_, ?_, ?_, ?_, ?_, ?_, ?_, ?_, ?_, ?_, ?_⟩
  all_goals unfold writeLineConfig
  all_goals (try dsimp only [])
  all_goals (repeat' split)
  all_goals simp

/-- `writeMap` leaves every other part of the state. -/
@[simp] theorem writeMap_frame (s : State) :
    (writeMap s).lines = s.lines ∧ (writeMap s).enableRefused = s.enableRefused ∧ (writeMap s).gens = s.gens ∧
    (writeMap s).stores = s.stores ∧ (writeMap s).readers = s.readers ∧ (writeMap s).bankA = s.bankA ∧
    (writeMap s).bankB = s.bankB ∧ (writeMap s).bc = s.bc ∧ (writeMap s).txas = s.txas ∧
    (writeMap s).host = s.host ∧ (writeMap s).counters = s.counters ∧ (writeMap s).windows = s.windows ∧
    (writeMap s).causes = s.causes ∧ (writeMap s).policies = s.policies ∧ (writeMap s).evq = s.evq ∧
    (writeMap s).irq = s.irq ∧ (writeMap s).bus = s.bus ∧ (writeMap s).pending = s.pending ∧
    (writeMap s).received = s.received ∧ (writeMap s).incoming = s.incoming := by
  refine ⟨?_, ?_, ?_, ?_, ?_, ?_, ?_, ?_, ?_, ?_, ?_, ?_, ?_, ?_, ?_, ?_, ?_, ?_, ?_, ?_⟩
  all_goals unfold writeMap
  all_goals (try dsimp only [])
  all_goals (repeat' split)
  all_goals simp

/-- `tpWrite` leaves every other part of the state. -/
@[simp] theorem tpWrite_frame (s : State) :
    (tpWrite s).enableRefused = s.enableRefused ∧ (tpWrite s).gens = s.gens ∧ (tpWrite s).stores = s.stores ∧
    (tpWrite s).readers = s.readers ∧ (tpWrite s).bankA = s.bankA ∧ (tpWrite s).bankB = s.bankB ∧
    (tpWrite s).bc = s.bc ∧ (tpWrite s).counters = s.counters ∧ (tpWrite s).windows = s.windows ∧
    (tpWrite s).policies = s.policies ∧ (tpWrite s).bus = s.bus ∧ (tpWrite s).pending = s.pending ∧
    (tpWrite s).received = s.received ∧ (tpWrite s).incoming = s.incoming := by
  refine ⟨?_, ?_, ?_, ?_, ?_, ?_, ?_, ?_, ?_, ?_, ?_, ?_, ?_, ?_⟩
  all_goals unfold tpWrite
  all_goals (try dsimp only [])
  all_goals (repeat' split)
  all_goals simp

/-- `groupPolicyWrite` leaves every other part of the state. -/
@[simp] theorem groupPolicyWrite_frame (v : Word) (s : State) :
    (groupPolicyWrite v s).lines = s.lines ∧ (groupPolicyWrite v s).enableRefused = s.enableRefused ∧
    (groupPolicyWrite v s).gens = s.gens ∧ (groupPolicyWrite v s).stores = s.stores ∧
    (groupPolicyWrite v s).readers = s.readers ∧ (groupPolicyWrite v s).bankA = s.bankA ∧
    (groupPolicyWrite v s).bankB = s.bankB ∧ (groupPolicyWrite v s).bc = s.bc ∧
    (groupPolicyWrite v s).arb = s.arb ∧ (groupPolicyWrite v s).host = s.host ∧
    (groupPolicyWrite v s).counters = s.counters ∧ (groupPolicyWrite v s).windows = s.windows ∧
    (groupPolicyWrite v s).tp = s.tp ∧ (groupPolicyWrite v s).bus = s.bus ∧
    (groupPolicyWrite v s).pending = s.pending ∧ (groupPolicyWrite v s).received = s.received ∧
    (groupPolicyWrite v s).incoming = s.incoming := by
  refine ⟨?_, ?_, ?_, ?_, ?_, ?_, ?_, ?_, ?_, ?_, ?_, ?_, ?_, ?_, ?_, ?_, ?_⟩
  all_goals unfold groupPolicyWrite
  all_goals (try dsimp only [])
  all_goals (repeat' split)
  all_goals (try simp only [giveGroup_frame])
  all_goals (try with_reducible rfl)
  all_goals
    refine (foldl_keeps _ _ (fun t a => ?_) _ _).trans ?_ <;> (try dsimp only []) <;> (repeat' split) <;> simp

/-- `loadComplete` leaves every other part of the state. -/
@[simp] theorem loadComplete_frame (s : State) :
    (loadComplete s).enableRefused = s.enableRefused ∧ (loadComplete s).gens = s.gens ∧
    (loadComplete s).bankA = s.bankA ∧ (loadComplete s).bankB = s.bankB ∧ (loadComplete s).bc = s.bc ∧
    (loadComplete s).host = s.host ∧ (loadComplete s).windows = s.windows ∧ (loadComplete s).causes = s.causes ∧
    (loadComplete s).policies = s.policies ∧ (loadComplete s).tp = s.tp ∧ (loadComplete s).bus = s.bus ∧
    (loadComplete s).pending = s.pending ∧ (loadComplete s).received = s.received ∧
    (loadComplete s).incoming = s.incoming := by
  refine ⟨?_, ?_, ?_, ?_, ?_, ?_, ?_, ?_, ?_, ?_, ?_, ?_, ?_, ?_⟩
  all_goals unfold loadComplete
  all_goals (try dsimp only [])
  all_goals (repeat' split)
  all_goals simp

/-- `copyStepComplete` leaves every other part of the state. -/
@[simp] theorem copyStepComplete_frame (s : State) :
    (copyStepComplete s).lines = s.lines ∧ (copyStepComplete s).enableRefused = s.enableRefused ∧
    (copyStepComplete s).gens = s.gens ∧ (copyStepComplete s).stores = s.stores ∧
    (copyStepComplete s).readers = s.readers ∧ (copyStepComplete s).txas = s.txas ∧
    (copyStepComplete s).host = s.host ∧ (copyStepComplete s).counters = s.counters ∧
    (copyStepComplete s).windows = s.windows ∧ (copyStepComplete s).causes = s.causes ∧
    (copyStepComplete s).policies = s.policies ∧ (copyStepComplete s).tp = s.tp ∧
    (copyStepComplete s).bus = s.bus ∧ (copyStepComplete s).pending = s.pending ∧
    (copyStepComplete s).received = s.received ∧ (copyStepComplete s).incoming = s.incoming := by
  refine ⟨?_, ?_, ?_, ?_, ?_, ?_, ?_, ?_, ?_, ?_, ?_, ?_, ?_, ?_, ?_, ?_⟩
  all_goals unfold copyStepComplete State.withBank
  all_goals (try dsimp only [])
  all_goals (repeat' split)
  all_goals simp

/-- `finishMapRead` leaves every other part of the state. -/
@[simp] theorem finishMapRead_frame (e : MapEntry) (s : State) :
    (finishMapRead e s).lines = s.lines ∧ (finishMapRead e s).enableRefused = s.enableRefused ∧
    (finishMapRead e s).gens = s.gens ∧ (finishMapRead e s).stores = s.stores ∧
    (finishMapRead e s).readers = s.readers ∧ (finishMapRead e s).bankA = s.bankA ∧
    (finishMapRead e s).bankB = s.bankB ∧ (finishMapRead e s).bc = s.bc ∧ (finishMapRead e s).txas = s.txas ∧
    (finishMapRead e s).host = s.host ∧ (finishMapRead e s).counters = s.counters ∧
    (finishMapRead e s).windows = s.windows ∧ (finishMapRead e s).causes = s.causes ∧
    (finishMapRead e s).policies = s.policies ∧ (finishMapRead e s).evq = s.evq ∧ (finishMapRead e s).irq = s.irq ∧
    (finishMapRead e s).bus = s.bus ∧ (finishMapRead e s).pending = s.pending ∧
    (finishMapRead e s).received = s.received ∧ (finishMapRead e s).incoming = s.incoming := by
  refine ⟨?_, ?_, ?_, ?_, ?_, ?_, ?_, ?_, ?_, ?_, ?_, ?_, ?_, ?_, ?_, ?_, ?_, ?_, ?_, ?_⟩
  all_goals unfold finishMapRead
  all_goals (try dsimp only [])
  all_goals (repeat' split)
  all_goals simp

/-- `finishMapWrite` leaves every other part of the state. -/
@[simp] theorem finishMapWrite_frame (e : MapEntry) (s : State) :
    (finishMapWrite e s).lines = s.lines ∧ (finishMapWrite e s).enableRefused = s.enableRefused ∧
    (finishMapWrite e s).gens = s.gens ∧ (finishMapWrite e s).stores = s.stores ∧
    (finishMapWrite e s).readers = s.readers ∧ (finishMapWrite e s).bc = s.bc ∧
    (finishMapWrite e s).txas = s.txas ∧ (finishMapWrite e s).host = s.host ∧
    (finishMapWrite e s).counters = s.counters ∧ (finishMapWrite e s).windows = s.windows ∧
    (finishMapWrite e s).causes = s.causes ∧ (finishMapWrite e s).policies = s.policies ∧
    (finishMapWrite e s).evq = s.evq ∧ (finishMapWrite e s).irq = s.irq ∧ (finishMapWrite e s).bus = s.bus ∧
    (finishMapWrite e s).pending = s.pending ∧ (finishMapWrite e s).received = s.received ∧
    (finishMapWrite e s).incoming = s.incoming := by
  refine ⟨?_, ?_, ?_, ?_, ?_, ?_, ?_, ?_, ?_, ?_, ?_, ?_, ?_, ?_, ?_, ?_, ?_, ?_⟩
  all_goals unfold finishMapWrite State.withBank
  all_goals (try dsimp only [])
  all_goals (repeat' split)
  all_goals simp

/-- `timeOut` leaves every other part of the state. -/
@[simp] theorem timeOut_frame (s : State) :
    (timeOut s).lines = s.lines ∧ (timeOut s).enableRefused = s.enableRefused ∧ (timeOut s).gens = s.gens ∧
    (timeOut s).stores = s.stores ∧ (timeOut s).readers = s.readers ∧ (timeOut s).bankA = s.bankA ∧
    (timeOut s).bankB = s.bankB ∧ (timeOut s).bc = s.bc ∧ (timeOut s).txas = s.txas ∧ (timeOut s).host = s.host ∧
    (timeOut s).counters = s.counters ∧ (timeOut s).windows = s.windows ∧ (timeOut s).causes = s.causes ∧
    (timeOut s).policies = s.policies ∧ (timeOut s).evq = s.evq ∧ (timeOut s).bus = s.bus ∧
    (timeOut s).pending = s.pending ∧ (timeOut s).received = s.received ∧ (timeOut s).incoming = s.incoming := by
  refine ⟨?_, ?_, ?_, ?_, ?_, ?_, ?_, ?_, ?_, ?_, ?_, ?_, ?_, ?_, ?_, ?_, ?_, ?_, ?_⟩
  all_goals unfold timeOut
  all_goals (try dsimp only [])
  all_goals (repeat' split)
  all_goals simp

end Sys2Proof.Machine
end

