-- ==== Sys2Proof/Laws/Turns.lean ====
section
/-! SUPPORT. What the gathering of the records of one event does (R165), said once: the chains, their interleaving and what
reaches the event queue. -/

namespace Sys2Proof.Machine

/-- The chains hold the records as they were sent. -/
theorem chains_flatten (rs : List EventRecord) : (chains rs).flatten = rs := by
  induction rs with
  | nil => rfl
  | cons r rs ih =>
    unfold chains
    split
    · next q qs c cs e =>
      rw [e] at ih
      split
      · simpa using ih
      · simpa using ih
    · simpa using ih

/-- The chains of no record and of one record. -/
theorem chains_nil : chains [] = [] := rfl

theorem chains_single (r : EventRecord) : chains [r] = [[r]] := rfl

/-- A record opens the first chain, and the record sent before it joins that chain or stands alone. -/
theorem chains_cons (q : EventRecord) (qs : List EventRecord) :
    ∃ c cs, chains (q :: qs) = (q :: c) :: cs
      ∧ ∀ r : EventRecord, chains (r :: q :: qs)
          = if r.continues q then (r :: q :: c) :: cs else [r] :: (q :: c) :: cs := by
  induction qs generalizing q with
  | nil => exact ⟨[], [], rfl, fun r => rfl⟩
  | cons p ps ih =>
    obtain ⟨d, ds, -, hd⟩ := ih p
    have hq := hd q
    obtain ⟨c, cs, hc⟩ : ∃ c cs, chains (q :: p :: ps) = (q :: c) :: cs := by
      rw [hq]; split
      · exact ⟨_, _, rfl⟩
      · exact ⟨_, _, rfl⟩
    refine ⟨c, cs, hc, fun r => ?_⟩
    rw [chains.eq_def]
    simp only [hc]

/-- Records that each follow the one before form one chain. -/
theorem chains_chain (r : EventRecord) (rs : List EventRecord) (h : (r :: rs).IsChain fun p q => p.continues q = true) :
    chains (r :: rs) = [r :: rs] := by
  induction rs generalizing r with
  | nil => rfl
  | cons q qs ih =>
    obtain ⟨hr, ht⟩ := List.isChain_cons_cons.mp h
    obtain ⟨c, cs, hc, hs⟩ := chains_cons q qs
    rw [ih q ht] at hc
    cases hc
    simp [hs, hr]

/-- The chains of more records hold the chains of fewer. -/
theorem chains_more (r : EventRecord) (rs c : List EventRecord) (h : c ∈ chains rs) :
    ∃ d ∈ chains (r :: rs), c.Sublist d := by
  cases rs with
  | nil => cases h
  | cons q qs =>
    obtain ⟨e, es, he, hs⟩ := chains_cons q qs
    rw [he] at h
    rw [hs]
    rcases List.mem_cons.mp h with rfl | h
    · split
      · exact ⟨_, List.mem_cons_self, List.sublist_cons_self ..⟩
      · exact ⟨_, List.mem_cons_of_mem _ List.mem_cons_self, .refl _⟩
    · split
      · exact ⟨c, List.mem_cons_of_mem _ h, .refl _⟩
      · exact ⟨c, List.mem_cons_of_mem _ (List.mem_cons_of_mem _ h), .refl _⟩

/-- No chain gives no record. -/
theorem interleave_nil (turns : List Nat) : interleave turns [] = [] := by
  induction turns with
  | nil => rfl
  | cons k ks ih => simp [interleave, ih]

/-- One chain is taken as it was sent. -/
theorem interleave_single (turns : List Nat) (c : List EventRecord) : interleave turns [c] = c := by
  induction turns generalizing c with
  | nil => simp [interleave]
  | cons k ks ih =>
    cases k with
    | zero =>
      cases c with
      | nil => simp [interleave, ih]
      | cons r rest => simp [interleave, ih]
    | succ k => simp [interleave, ih]

/-- The queue takes every record once. -/
theorem interleave_perm (turns : List Nat) (cs : List (List EventRecord)) : (interleave turns cs).Perm cs.flatten := by
  induction turns generalizing cs with
  | nil => exact .refl _
  | cons k ks ih =>
    unfold interleave
    split
    · next r rest h =>
      refine ((ih _).cons r).trans ?_
      obtain ⟨hk, e⟩ := List.getElem?_eq_some_iff.mp h
      conv_rhs => rw [← List.take_append_drop k cs, List.drop_eq_getElem_cons hk, e]
      rw [List.set_eq_take_append_cons_drop, if_pos hk]
      simp only [List.flatten_append, List.flatten_cons, List.cons_append]
      exact (List.perm_middle).symm
    · exact ih _
    · exact ih _

/-- The queue takes each chain in its order. -/
theorem sublist_interleave (turns : List Nat) (cs : List (List EventRecord)) (c : List EventRecord) (h : c ∈ cs) :
    c.Sublist (interleave turns cs) := by
  induction turns generalizing cs c with
  | nil => exact List.sublist_flatten_of_mem h
  | cons k ks ih =>
    unfold interleave
    split
    · next r rest e =>
      obtain ⟨hk, e⟩ := List.getElem?_eq_some_iff.mp e
      obtain ⟨i, hi, rfl⟩ := List.getElem_of_mem h
      by_cases hik : i = k
      · subst hik
        rw [e]
        exact (ih _ _ (List.mem_iff_getElem.mpr ⟨i, by simpa using hk, by simp⟩)).cons_cons r
      · refine (ih _ _ (List.mem_iff_getElem.mpr ⟨i, by simpa using hi, ?_⟩)).cons r
        rw [List.getElem_set_ne (Ne.symm hik)]
    · exact ih _ _ h
    · exact ih _ _ h

/-- A record that follows the one sent before it is taken after it, whatever turns the event names. -/
theorem continues_taken (turns : List Nat) (before after : List EventRecord) (r q : EventRecord)
    (h : r.continues q = true) :
    [r, q].Sublist (interleave turns (chains (before ++ r :: q :: after))) := by
  have key : ∃ c ∈ chains (before ++ r :: q :: after), [r, q].Sublist c := by
    induction before with
    | nil =>
      obtain ⟨c, cs, -, hs⟩ := chains_cons q after
      refine ⟨r :: q :: c, ?_, .cons_cons _ (.cons_cons _ (List.nil_sublist c))⟩
      simp [hs, h]
    | cons b bs ih =>
      obtain ⟨c, hc, hs⟩ := ih
      obtain ⟨d, hd, hcd⟩ := chains_more b _ c hc
      exact ⟨d, hd, hs.trans hcd⟩
  obtain ⟨c, hc, hs⟩ := key
  exact hs.trans (sublist_interleave turns _ c hc)

/-- The records an event sends are all taken, in an order that keeps each chain. -/
theorem taken_perm (turns : List Nat) (rs : List EventRecord) : (interleave turns (chains rs)).Perm rs := by
  simpa [chains_flatten] using interleave_perm turns (chains rs)

/-- With no turn named the queue takes the records as they were sent. -/
theorem taken_nil (rs : List EventRecord) : interleave [] (chains rs) = rs := chains_flatten rs

/-- Records that find room are appended in their order, and nothing else changes. -/
theorem appendRecords_room (rs : List EventRecord) (s : State)
    (h : s.evq.records.length + rs.length ≤ Config.eventCapacity) :
    rs.foldl (fun u r => appendRecord r u) s = s.withEvq { s.evq with records := s.evq.records ++ rs } := by
  induction rs generalizing s with
  | nil => simp; rfl
  | cons r rs ih =>
    simp only [List.length_cons] at h
    rw [List.foldl_cons, appendRecord, if_pos (by omega), ih]
    · simp; rfl
    · simp; omega

/-- An event that sends no record leaves the event queue. -/
theorem inTurn_quiet (turns : List Nat) (f : State → State) (s : State)
    (h : (f (s.withEvq { s.evq with records := [] })).evq.records = []) :
    inTurn turns f s = (f (s.withEvq { s.evq with records := [] })).withEvq s.evq := by
  simp only [inTurn, h, chains_nil, interleave_nil, List.foldl_nil]

/-- An event that does nothing changes nothing, whatever turns it names. -/
theorem inTurn_still (turns : List Nat) (f : State → State) (s : State)
    (h : f (s.withEvq { s.evq with records := [] }) = s.withEvq { s.evq with records := [] }) :
    inTurn turns f s = s := by
  rw [inTurn_quiet _ _ _ (by rw [h]; rfl), h]; rfl

/-- The event queue after an event whose records find room. -/
theorem inTurn_room (turns : List Nat) (f : State → State) (s : State)
    (h : s.evq.records.length + (f (s.withEvq { s.evq with records := [] })).evq.records.length
      ≤ Config.eventCapacity) :
    inTurn turns f s = (f (s.withEvq { s.evq with records := [] })).withEvq { s.evq with
      records := s.evq.records
        ++ interleave turns (chains (f (s.withEvq { s.evq with records := [] })).evq.records) } := by
  have hl := (taken_perm turns (f (s.withEvq { s.evq with records := [] })).evq.records).length_eq
  simp only [inTurn]
  rw [appendRecords_room]
  · rfl
  · rw [hl]; exact h

/-- A property that the event queue does not bear on and that an event keeps is kept when its records are taken in turn. -/
theorem inTurn_keeps {P : State → Prop} (hq : ∀ s q, P s → P (s.withEvq q)) (hr : ∀ r s, P s → P (appendRecord r s))
    (turns : List Nat) {f : State → State} (hf : ∀ s, P s → P (f s)) {s : State} (h : P s) : P (inTurn turns f s) :=
  foldl_invariant P _ (fun t r => hr r t) _ _ (hq _ _ (hf _ (hq _ _ h)))

end Sys2Proof.Machine
end

