-- ==== Sys2Proof/Laws/Memory.lean ====
section
/-! SUPPORT. The laws of table memory: a read after a write, and that every operation on a bank keeps its canonical form. -/

namespace Sys2Proof.Machine

/-- An index below those of a canonical bank is not listed. -/
theorem Bank.read_below {b : Bank} : ∀ {lo i : Nat}, Bank.wfFrom lo b = true → i < lo → Bank.read b i = .zero := by
  induction b with
  | nil => intro lo i _ _; rfl
  | cons p r ih =>
    obtain ⟨k, e⟩ := p
    intro lo i h hi
    simp only [Bank.wfFrom, Bool.and_eq_true, decide_eq_true_eq] at h
    simp only [Bank.read, if_neg (show k ≠ i by omega)]
    exact ih h.2 (by omega)

/-- A bank canonical from an index is canonical from every lower one. -/
theorem Bank.wfFrom_mono {b : Bank} {lo lo' : Nat} (h : Bank.wfFrom lo b = true) (hl : lo' ≤ lo) :
    Bank.wfFrom lo' b = true := by
  cases b with
  | nil => rfl
  | cons p r =>
    obtain ⟨k, e⟩ := p
    simp only [Bank.wfFrom, Bool.and_eq_true, decide_eq_true_eq] at h ⊢
    exact ⟨⟨by omega, h.1.2⟩, h.2⟩

/-- A write keeps the canonical form. -/
theorem Bank.write_wfFrom {b : Bank} {i : Nat} {e : MapEntry} :
    ∀ {lo : Nat}, Bank.wfFrom lo b = true → lo ≤ i → Bank.wfFrom lo (Bank.write b i e) = true := by
  induction b with
  | nil =>
    intro lo _ hi
    by_cases he : e = .zero <;> simp [Bank.write, Bank.wfFrom, he, hi]
  | cons p r ih =>
    obtain ⟨k, f⟩ := p
    intro lo h hi
    have h' := h
    simp only [Bank.wfFrom, Bool.and_eq_true, decide_eq_true_eq, bne_iff_ne, ne_eq] at h
    obtain ⟨⟨hk, hf⟩, hr⟩ := h
    unfold Bank.write
    split
    · split
      · exact h'
      · rename_i hik he
        simp [Bank.wfFrom, hi, he, hf, hr]; omega
    · split
      · split
        · exact Bank.wfFrom_mono hr (by omega)
        · rename_i hik he
          subst hik
          simp [Bank.wfFrom, hk, he, hr]
      · simp only [Bank.wfFrom, Bool.and_eq_true, decide_eq_true_eq, bne_iff_ne, ne_eq]
        exact ⟨⟨hk, hf⟩, ih hr (by omega)⟩

/-- A write keeps the canonical form of a bank. -/
theorem Bank.write_wf {b : Bank} {i : Nat} {e : MapEntry} (h : Bank.wf b = true) : Bank.wf (Bank.write b i e) = true :=
  Bank.write_wfFrom h (Nat.zero_le i)

/-- A read after a write gives the entry written at its index, and the former entry at every other. -/
theorem Bank.read_write_from {b : Bank} {i j : Nat} {e : MapEntry} :
    ∀ {lo : Nat}, Bank.wfFrom lo b = true → Bank.read (Bank.write b i e) j = if j = i then e else Bank.read b j := by
  induction b with
  | nil =>
    intro lo _
    by_cases he : e = .zero <;> by_cases hj : j = i
    · simp [Bank.write, Bank.read, he]
    · simp [Bank.write, Bank.read, he]
    · simp [Bank.write, Bank.read, he, hj]
    · simp [Bank.write, Bank.read, he, hj, Ne.symm hj]
  | cons p r ih =>
    obtain ⟨k, f⟩ := p
    intro lo h
    simp only [Bank.wfFrom, Bool.and_eq_true, decide_eq_true_eq] at h
    unfold Bank.write
    split
    · rename_i hik
      split
      · rename_i he
        by_cases hj : j = i
        · subst hj
          simp only [Bank.read, if_neg (show k ≠ j by omega), he, if_true]
          exact Bank.read_below h.2 (by omega)
        · simp [hj]
      · by_cases hj : j = i
        · subst hj; simp [Bank.read]
        · simp [Bank.read, hj, Ne.symm hj]
    · split
      · rename_i hik
        subst hik
        split
        · rename_i he
          by_cases hj : j = i
          · subst hj
            simp only [if_true, he]
            exact Bank.read_below h.2 (by omega)
          · simp [Bank.read, hj, Ne.symm hj]
        · by_cases hj : j = i
          · subst hj; simp [Bank.read]
          · simp [Bank.read, hj, Ne.symm hj]
      · by_cases hkj : k = j
        · subst hkj
          rename_i h1 h2
          simp [Bank.read, Ne.symm h2]
        · simp only [Bank.read, if_neg hkj]
          exact ih h.2

/-- A read after a write of a canonical bank. -/
theorem Bank.read_write {b : Bank} (h : Bank.wf b = true) (i j : Nat) (e : MapEntry) :
    Bank.read (Bank.write b i e) j = if j = i then e else Bank.read b j :=
  Bank.read_write_from h

namespace State

@[simp] theorem withBank_bank_self (s : State) (b : BankName) (v : Bank) : (s.withBank b v).bank b = v := by
  cases b <;> rfl

@[simp] theorem withBank_bank_other (s : State) (b : BankName) (v : Bank) :
    (s.withBank b v).bank b.other = s.bank b.other := by
  cases b <;> rfl

end State

end Sys2Proof.Machine
end

