-- ==== Sys2Proof/Laws/Ops.lean ====
section
/-! SUPPORT. What each shared operation does, said once: counters, causes, release, banks, adoption, the table port. Later
proofs cite these lemmas and unfold no operation. -/

namespace Sys2Proof.Machine

/-! ### Lines, sets of lines and loops over the lines -/

/-- Every line stands in the list of the lines. -/
theorem mem_allLines (n : Line) : n ∈ allLines := by revert n; decide

/-- No line stands in it twice. -/
theorem allLines_nodup : allLines.Nodup := by decide

/-- A test of some line. -/
theorem allLines_any (p : Line → Bool) : allLines.any p = true ↔ ∃ n, p n = true := by
  simp only [List.any_eq_true]; exact ⟨fun ⟨n, _, h⟩ => ⟨n, h⟩, fun ⟨n, h⟩ => ⟨n, mem_allLines n, h⟩⟩

/-- What a loop does at line `n`: `P` holds up to its turn, the turn gives `Q`, and `Q` lasts. -/
theorem foldl_at {g : State → Line → State} {P Q : State → Prop} (n : Line)
    (hpre : ∀ t m, m ≠ n → P t → P (g t m)) (hn : ∀ t, P t → Q (g t n))
    (hpost : ∀ t m, m ≠ n → Q t → Q (g t m)) : ∀ (l : List Line) (s : State), l.Nodup → n ∈ l → P s → Q (l.foldl g s) := by
  intro l
  induction l with
  | nil => intro s _ h; cases h
  | cons a l ih =>
    intro s hd hm hp
    rw [List.nodup_cons] at hd
    by_cases ha : a = n
    · subst ha
      have : ∀ (l : List Line) (s : State), a ∉ l → Q s → Q (l.foldl g s) := by
        intro l
        induction l with
        | nil => intro s _ h; exact h
        | cons b l ih2 => intro s hb hq; simp at hb; exact ih2 _ hb.2 (hpost _ _ (Ne.symm hb.1) hq)
      exact this l _ hd.1 (hn _ hp)
    · refine ih _ hd.2 ?_ (hpre _ _ ha hp)
      rcases List.mem_cons.mp hm with h | h
      · exact absurd h.symm ha
      · exact h

/-- What a loop over all lines does at line `n`. -/
theorem foldl_allLines {g : State → Line → State} {P Q : State → Prop} (n : Line) {s : State} (hp : P s)
    (hpre : ∀ t m, m ≠ n → P t → P (g t m)) (hn : ∀ t, P t → Q (g t n))
    (hpost : ∀ t m, m ≠ n → Q t → Q (g t m)) : Q (allLines.foldl g s) :=
  foldl_at n hpre hn hpost _ _ allLines_nodup (mem_allLines n) hp

/-- The empty set of lines. -/
theorem isEmpty_iff (l : LineSet) : l.isEmpty = true ↔ ∀ n, l.get n = false := by
  simp only [LineSet.isEmpty, List.all_eq_true, Bool.not_eq_true']
  exact ⟨fun h n => h n (mem_allLines n), fun h n _ => h n⟩

/-- The members after a removal. -/
theorem get_erase (l : LineSet) (n m : Line) : (l.erase n).get m = (l.get m && m != n) := by
  simp only [LineSet.erase, Tab.get_put]; by_cases h : m = n <;> simp [h]

/-- A physical line is not the host line. -/
theorem physLine_ne_host (p : PhysLine) : p.line ≠ hostLine := by
  intro h; have := congrArg Fin.val h; simp [PhysLine.line, hostLine] at this; omega

/-! ### Fields of words -/

/-- A field of a word written as a number. -/
theorem field_ofNat (n lo len : Nat) (h : n < 65536) : Word.field (BitVec.ofNat 16 n) lo len = (n / 2^lo) % 2^len := by
  simp [Word.field, Nat.mod_eq_of_lt h]

/-- A bit of a word written as a number. -/
theorem bit_ofNat (n i : Nat) (hi : i < 16) : Word.bit (BitVec.ofNat 16 n) i = n.testBit i := by
  rw [Word.bit, BitVec.getLsbD_ofNat]; simp [hi]

/-! ### Counters (R145, R166) -/

/-- One more, held at 65535. -/
theorem satInc_toNat (w : Word) : (satInc w).toNat = min 65535 (w.toNat + 1) := by
  unfold satInc; split
  · next h => subst h; decide
  · next h => 
    have : w.toNat ≠ 65535 := by intro e; apply h; apply BitVec.eq_of_toNat_eq; rw [e]; rfl
    have := w.isLt
    rw [BitVec.toNat_add]; simp; omega

/-- A counter is read from the counters alone. -/
theorem counter_congr {s t : State} (h : t.counters = s.counters) (n : Line) (k : Fin 8) :
    t.counter n k = s.counter n k := by
  simp [State.counter, h]

/-- What one increment does to every counter. -/
theorem countUp_counter (n m : Line) (k j : Fin 8) (s : State) :
    (countUp n k s).counter m j = if m = n ∧ j = k then satInc (s.counter n k) else s.counter m j := by
  simp only [State.counter, countUp, State.withCounters_counters, Tab.get_put]
  by_cases h : m = n
  · subst h; by_cases h2 : j = k
    · subst h2; simp
    · simp [h2, Tab.get_put]
  · simp [h]

/-- What a conditional increment does to every counter. -/
theorem countUpIf_counter (b : Bool) (n m : Line) (k j : Fin 8) (s : State) :
    (countUpIf b n k s).counter m j = if b = true ∧ m = n ∧ j = k then satInc (s.counter n k) else s.counter m j := by
  cases b <;> simp [countUpIf, countUp_counter]

/-! ### Causes and suspension (R123, R152, R154, R157) -/

/-- An added cause is present. -/
theorem CauseSet.add_has (c : CauseSet) (k : Cause) : (c.add k).has k = true := by cases k <;> rfl

/-- A cause that is present stays. -/
theorem CauseSet.add_mono (c : CauseSet) (k j : Cause) (h : c.has j = true) :
    (c.add k).has j = true := by cases k <;> cases j <;> simp_all [CauseSet.add, CauseSet.has]

/-- A line with an own cause is faulted. -/
theorem CauseSet.own_faulted (c : CauseSet) (h : c.own = true) : c.faulted = true := by
  revert h; simp [CauseSet.own, CauseSet.faulted]; intro h; simp [h]

/-- What adding a cause does to every cause set. -/
theorem addCause_causes (n m : Line) (c : Cause) (s : State) :
    (addCause n c s).causes.get m = if m = n then ((s.causes.get n).add c) else s.causes.get m := by
  unfold addCause; split
  · next h => split
              · next e => subst e; cases c <;> simp_all [CauseSet.has,
                  CauseSet.add] <;> cases hh : s.causes.get m <;> simp_all
              · rfl
  · simp [Tab.get_put]

/-- What giving GROUP does to every cause set. -/
theorem giveGroup_causes (g) (s : State) (n : Line) :
    (giveGroup g s).causes.get n = if g n then (s.causes.get n).add .group else s.causes.get n := by
  refine foldl_allLines (P := fun t => t.causes.get n = s.causes.get n) (Q := fun t => t.causes.get n = _) n rfl ?_ ?_ ?_
  · intro t m hm ht; split
    · rw [addCause_causes, if_neg (Ne.symm hm), ht]
    · exact ht
  · intro t ht; split
    · rw [addCause_causes, if_pos rfl, ht]
    · exact ht
  · intro t m hm ht; split
    · rw [addCause_causes, if_neg (Ne.symm hm), ht]
    · exact ht

/-- A cause that is present stays. -/
theorem addCause_mono (n m : Line) (c j : Cause) (s : State) (h : (s.causes.get m).has j = true) :
    ((addCause n c s).causes.get m).has j = true := by
  rw [addCause_causes]; split
  · next e => subst e; exact CauseSet.add_mono _ _ _ h
  · exact h

/-- A cause that is present stays. -/
theorem giveGroup_mono (g) (m : Line) (j : Cause) (s : State) (h : (s.causes.get m).has j = true) :
    ((giveGroup g s).causes.get m).has j = true := by
  refine foldl_invariant (fun t => (t.causes.get m).has j = true) _ ?_ _ _ h
  intro t a ht; split
  · exact addCause_mono _ _ _ _ _ ht
  · exact ht

/-- An own cause that is added is present. -/
theorem addOwnCause_has (n : Line) (c : Cause) (s : State) : ((addOwnCause n c s).causes.get n).has c = true := by
  unfold addOwnCause; split
  · assumption
  · split
    · apply giveGroup_mono; rw [addCause_causes]; simp [CauseSet.add_has]
    · rw [addCause_causes]; simp [CauseSet.add_has]

/-- What the test of the isolating condition does to every assembler. -/
theorem suspendIfIsolating_txas (n m : Line) (s : State) :
    (suspendIfIsolating n s).txas.get m = if m = n
        ∧ s.isolating n = true then { s.txas.get n with suspended := true, spanSuspended := true } else s.txas.get m := by
  unfold suspendIfIsolating suspend; split
  · next h => simp [h, Tab.get_put]
  · next h => simp [h]

/-- What the isolating condition is read from. -/
theorem isolating_congr {s t : State} {n} (h1 : t.causes = s.causes) (h2 : t.lines = s.lines) (h3 : t.policies
    = s.policies) : t.isolating n = s.isolating n := by
  simp [State.isolating, State.faulted, State.policyOf, State.groupOf, h1, h2, h3]

/-- What a release does to every cause set. -/
theorem releaseLine_causes (n m : Line) (s : State) :
    (releaseLine n s).causes.get m = if m = n then .empty else s.causes.get m := by
  simp [releaseLine, Tab.get_put]

/-- What a release does to every line. -/
theorem releaseLine_lines (n m : Line) (s : State) :
    (releaseLine n s).lines.get m = if m = n then (if (s.lines.get n).receiver = .lost then
        { s.lines.get n with receiver := .hunt, verifyCount := 0, timerArmed := false } else s.lines.get n)
            else s.lines.get m := by
  simp [releaseLine, Tab.get_put]

/-- What the releases of a set of lines do to every line. -/
theorem releaseFold_line (r : Line → Bool) (s : State) (n : Line) :
   (allLines.foldl (fun t n => if r n then releaseLine n t else t) s).causes.get n = (if r n then .empty else s.causes.get n)
   ∧ (allLines.foldl (fun t n => if r n then releaseLine n t
       else t) s).lines.get n = (if r n then (if (s.lines.get n).receiver = .lost then
        { s.lines.get n with receiver := .hunt, verifyCount := 0, timerArmed := false } else s.lines.get n)
            else s.lines.get n) := by
  refine foldl_allLines (P := fun t => t.causes.get n = s.causes.get n
      ∧ t.lines.get n = s.lines.get n) (Q := fun t => t.causes.get n = _ ∧ t.lines.get n = _) n ⟨rfl, rfl⟩ ?_ ?_ ?_
  · intro t m hm ⟨a, b⟩; split
    · rw [releaseLine_causes, releaseLine_lines, if_neg (Ne.symm hm), if_neg (Ne.symm hm)]; exact ⟨a, b⟩
    · exact ⟨a, b⟩
  · intro t ⟨a, b⟩; split
    · rw [releaseLine_causes, releaseLine_lines, if_pos rfl, if_pos rfl, b]; exact ⟨rfl, rfl⟩
    · exact ⟨a, b⟩
  · intro t m hm ⟨a, b⟩; split
    · rw [releaseLine_causes, releaseLine_lines, if_neg (Ne.symm hm), if_neg (Ne.symm hm)]; exact ⟨a, b⟩
    · exact ⟨a, b⟩

/-- What a release of a set of lines does to every line and cause set (R157). -/
theorem releaseLines_spec (named : Line → Bool) (s : State) (n : Line) :
   (releaseLines named s).lines.get n = (if named n && s.faulted n then (if (s.lines.get n).receiver = .lost then
        { s.lines.get n with receiver := .hunt, verifyCount := 0, timerArmed := false } else s.lines.get n)
            else s.lines.get n)
   ∧ (releaseLines named s).causes.get n = (if named n && s.faulted n then
        (if s.policyOf n = .isolateGroup ∧ ∃ m, m ≠ n ∧ s.groupOf m = s.groupOf n ∧ named m = false
            ∧ (s.causes.get m).own = true then CauseSet.empty.add .group else .empty) else s.causes.get n) := by
  have rf := releaseFold_line (fun n => named n && s.faulted n) s
  unfold releaseLines; dsimp only
  refine ⟨by rw [(giveGroup_frame _ _).1, (rf n).2], ?_⟩
  rw [giveGroup_causes, (rf n).1]
  have pl : (allLines.foldl (fun t n => if (named n && s.faulted n) = true then releaseLine n t
      else t) s).policies = s.policies := by
    refine foldl_keeps _ _ ?_ _ _
    intro s a; split <;> simp
  generalize allLines.foldl (fun t n => if (named n && s.faulted n) = true then releaseLine n t else t) s = s1 at rf pl
  have g : ∀ m, s1.groupOf m = s.groupOf m := by
    intro m; simp only [State.groupOf]; rw [(rf m).2]; split
    · split <;> rfl
    · rfl
  have po : s1.policyOf n = s.policyOf n := by simp [State.policyOf, g, pl]
  have oo : s1.otherOwnCause n = true ↔ ∃ m, m ≠ n ∧ s.groupOf m = s.groupOf n ∧ named m = false
      ∧ (s.causes.get m).own = true := by
    unfold State.otherOwnCause; rw [allLines_any]
    constructor
    · rintro ⟨m, h⟩
      simp only [Bool.and_eq_true, bne_iff_ne, beq_iff_eq, g, (rf m).1] at h
      obtain ⟨⟨a, b⟩, c⟩ := h
      split at c
      · cases c
      · next hh =>
        refine ⟨m, a, b, ?_, c⟩
        have := CauseSet.own_faulted _ c
        simpa [State.faulted, this] using hh
    · rintro ⟨m, a, b, c, d⟩
      refine ⟨m, ?_⟩
      simp only [Bool.and_eq_true, bne_iff_ne, beq_iff_eq, g, (rf m).1, c]
      exact ⟨⟨a, b⟩, by simpa using d⟩
  by_cases hn : (named n && s.faulted n) = true
  · simp only [hn, Bool.true_and, if_true, po, Bool.and_eq_true, beq_iff_eq, oo]
  · simp only [hn, Bool.false_and, if_false]; rfl

/-! ### Banks and adoption (R79, R100, R101, R104) -/

/-- Both banks at every index after a write to one of them. -/
theorem bank_withBank_write (s : State) (hb : BanksCanonical s) (nm : BankName) (i : Nat) (e : MapEntry) (b :
    BankName) (k : Nat) :
    Bank.read ((s.withBank nm (Bank.write (s.bank nm) i e)).bank b) k = if b = nm
        ∧ k = i then e else Bank.read (s.bank b) k := by
  have hw : ∀ b, Bank.wf (s.bank b) = true := by intro b; cases b; exact hb.1; exact hb.2
  have : (s.withBank nm (Bank.write (s.bank nm) i e)).bank b = if b = nm then Bank.write (s.bank nm) i e else s.bank b := by
    cases nm <;> cases b <;> simp [State.withBank, State.bank]
  rw [this]
  by_cases h : b = nm
  · subst h; simp only [if_true, true_and]; rw [Bank.read_write (hw _)]
  · simp [h]

/-- What the completion of a commit does. -/
theorem completeCommit_spec (u : State) : (completeCommit u).bc = { u.bc with pair := .stable }
  ∧ (completeCommit u).irq = { u.irq with evqLoss := (completeCommit u).irq.evqLoss, commitDone := true }
  ∧ (u.evq.records.length < 32 → (completeCommit u).irq.evqLoss = u.irq.evqLoss ∧
      (completeCommit u).evq.records = u.evq.records ++ [⟨.commitDone, 0, 0, 1, BitVec.ofNat 16 u.bc.active.code, 0⟩]) := by
  refine ⟨?_, ?_, ?_⟩
  · simp only [completeCommit, sendBankEvent, appendRecord]; split <;> simp
  · simp only [completeCommit, sendBankEvent, appendRecord]; split <;> simp
  · intro h; simp [completeCommit, sendBankEvent, appendRecord, Config.eventCapacity, h]

/-- A line outside the adoption set adopts nothing. -/
theorem adopt_out {n : Line} {s : State} (h : s.bc.adoptionSet.get n = false) : adopt n s = s := by
  simp [adopt, h]

/-- The adoption set after an adoption. -/
theorem adopt_adoptionSet (n m : Line) (s : State) :
    (adopt n s).bc.adoptionSet.get m = (s.bc.adoptionSet.get m && m != n) := by
  unfold adopt
  split
  · dsimp only; split
    · rw [(completeCommit_spec _).1]; simp [get_erase]
    · simp [get_erase]
  · next h => 
    by_cases hm : m = n
    · subst hm; simp [h]
    · simp [hm]

/-! ### The table port and the host bus (R176, R186) -/

/-- What the advance of the cursor does. -/
theorem TablePort.advance_spec (tp : TablePort) : tp.advance.tableId = tp.tableId ∧ tp.advance.data = tp.data
    ∧ tp.advance.result = tp.result ∧
    (tp.autoAdvance = false → tp.advance.index = tp.index ∧ tp.advance.wrapped = tp.wrapped)
        ∧ (tp.autoAdvance = true → tp.tableId.toNat ≤ 1 → tp.index.toNat < 527 →
            tp.advance.index.toNat = tp.index.toNat + 1 ∧ tp.advance.wrapped = tp.wrapped)
        ∧ (tp.autoAdvance = true → tp.tableId.toNat ≤ 1 → tp.index.toNat = 527 →
            tp.advance.index = 0 ∧ tp.advance.wrapped = true) := by
  unfold TablePort.advance
  refine ⟨?_, ?_, ?_, ?_, ?_, ?_⟩
  · split <;> (try split) <;> rfl
  · split <;> (try split) <;> rfl
  · split <;> (try split) <;> rfl
  · intro h; simp [h]
  · intro h h1 h2; simp [h, tableSize, h1]; rw [if_neg (by omega)]; refine ⟨?_, rfl⟩; simp [BitVec.toNat_add]; omega
  · intro h h1 h2; simp [h, tableSize, h1, h2]

/-- With no access waiting, RDY returns without an effect. -/
theorem returnReady_none {s : State} (h : s.bus.held = []) : returnReady s = s := by
  have : s.withBus { s.bus with held := [] } = s := by
    rw [← h]; rfl
  simp [returnReady, h, drainHeld, this]

/-- A host access while RDY is active. -/
theorem exec_hostAccess {c : Instr} {s : State} (hc : c.isHostAccess = true) (hne : ∀ a v, c ≠ .registerWriteIgnored a v)
    (hs : s.stretched = false) : exec c s = .next (takeHeld c s) := by
  cases c
  case registerWriteIgnored a v => exact absurd rfl (hne a v)
  all_goals first
    | (exfalso; revert hc; simp [Instr.isHostAccess, encodeAccess]; done)
    | (show Host.Outcome.next (whenReady _ _ s) = _; simp [whenReady, hs, takeHeld])

end Sys2Proof.Machine
end

