-- ==== Sys2Proof/Laws/Wire.lean ====
section
/-! SUPPORT. What the bit clocks do (R4, R12, R42), said once: the bits received, and the words written to the FILLING buffer,
which are all that they change in the stores. -/

namespace Sys2Proof.Machine

/-- The stores hold the same frames, but for words. -/
structure Store.SameFrames (a b : Store) : Prop where
  buffer : ∀ i, b.buffers.get i = { a.buffers.get i with words := (b.buffers.get i).words }
  frameCount : b.frameCount = a.frameCount
  discarding : b.discarding = a.discarding
  overrunRun : b.overrunRun = a.overrunRun

namespace Store.SameFrames

theorem refl (a : Store) : a.SameFrames a := ⟨fun _ => rfl, rfl, rfl, rfl⟩

theorem of_eq {a b : Store} (h : b = a) : a.SameFrames b := h ▸ refl a

theorem trans {a b c : Store} (h : a.SameFrames b) (k : b.SameFrames c) : a.SameFrames c :=
  ⟨fun i => by rw [k.buffer i, h.buffer i], k.frameCount.trans h.frameCount, k.discarding.trans h.discarding,
    k.overrunRun.trans h.overrunRun⟩

variable {a b : Store}

theorem state (h : a.SameFrames b) (i : Fin 4) : (b.buffers.get i).state = (a.buffers.get i).state := by
  rw [h.buffer i]

theorem number (h : a.SameFrames b) (i : Fin 4) : (b.buffers.get i).number = (a.buffers.get i).number := by
  rw [h.buffer i]

theorem damaged (h : a.SameFrames b) (i : Fin 4) : (b.buffers.get i).damaged = (a.buffers.get i).damaged := by
  rw [h.buffer i]

theorem holders (h : a.SameFrames b) (i : Fin 4) : (b.buffers.get i).holders = (a.buffers.get i).holders := by
  rw [h.buffer i]

theorem filling (h : a.SameFrames b) : b.filling = a.filling := by
  simp only [Store.filling, h.state]

theorem receiving (h : a.SameFrames b) : b.receiving = a.receiving := by
  simp only [Store.receiving, h.filling, h.discarding]

theorem readyFrames (h : a.SameFrames b) : b.readyFrames = a.readyFrames := by
  simp only [Store.readyFrames, Buffer.readyNumber, h.state, h.number]

theorem newest (h : a.SameFrames b) : b.newest = a.newest := by
  simp only [Store.newest, h.readyFrames]

theorem choose (h : a.SameFrames b) : b.choose = a.choose := by
  simp only [Store.choose, Store.reusable, h.readyFrames, h.newest, h.state, h.holders]

end Store.SameFrames

/-- A change of one buffer of a store, at every buffer. -/
theorem Store.modify_buffer (st : Store) (i j : Fin 4) (f : Buffer → Buffer) :
    (st.modify i f).buffers.get j = if j = i then f (st.buffers.get i) else st.buffers.get j := by
  simp [Store.modify, Tab.get_put]

/-- A word written to the FILLING buffer changes no frame. -/
theorem Store.writeWord_same (i : Nat) (w : Word) (st : Store) : st.SameFrames (st.writeWord i w) := by
  unfold Store.writeWord; split
  · refine ⟨fun j => ?_, rfl, rfl, rfl⟩
    rw [Store.modify_buffer]; split
    · next h => subst h; rfl
    · rfl
  · exact .refl _

/-- The words of every buffer after a word is written to the FILLING one (R42). -/
theorem Store.writeWord_words (k : Nat) (w : Word) (st : Store) (i : Fin 4) :
    ((st.writeWord k w).buffers.get i).words
      = if st.filling = some i then (st.buffers.get i).words.set k w else (st.buffers.get i).words := by
  unfold Store.writeWord; split
  · next b h =>
    rw [Store.modify_buffer, h]
    by_cases e : i = b
    · subst e; simp [Buffer.writeWord]
    · simp [e, Ne.symm e]
  · next h => simp [h]

/-- Every store after the last of the bits. -/
theorem storeFormed_stores (n x : Line) (bits : List Bool) (s : State) :
    (storeFormed n bits s).stores.get x
      = if x = n ∧ s.running n = true then
          (match formedWord (s.lines.get n).config.slotCount bits with
           | some (i, w) => (s.stores.get n).writeWord i w
           | none => s.stores.get n)
        else s.stores.get x := by
  unfold storeFormed
  by_cases hr : s.running n = true
  · simp only [hr, if_true, and_true]
    cases formedWord (s.lines.get n).config.slotCount bits with
    | some f => simp [modifyStore, Tab.get_put]
    | none => by_cases h : x = n <;> simp [h]
  · simp [hr]

/-- Every store after a bit clock. -/
theorem bitClock_stores (n x : Line) (b : Bool) (s : State) :
    (bitClock n b s).stores.get x
      = if x = n ∧ s.running n = true then
          (match formedWord (s.lines.get n).config.slotCount (s.received.get n ++ [b]) with
           | some (i, w) => (s.stores.get n).writeWord i w
           | none => s.stores.get n)
        else s.stores.get x := by
  unfold bitClock; split
  · rw [storeFormed_stores]; rfl
  · next h =>
    have hr : s.running n = false := by
      simp only [State.counting, Bool.or_eq_true, not_or, Bool.not_eq_true] at h; exact h.2
    simp [hr]

/-- A bit clock changes no frame. -/
theorem bitClock_same (n x : Line) (b : Bool) (s : State) :
    (s.stores.get x).SameFrames ((bitClock n b s).stores.get x) := by
  rw [bitClock_stores]; split
  · next h =>
    rw [h.1]; split
    · exact Store.writeWord_same ..
    · exact .refl _
  · exact .refl _

/-- The bits received after a bit clock. -/
theorem bitClock_received (n : Line) (b : Bool) (s : State) :
    (bitClock n b s).received
      = if s.counting n then s.received.put n (s.received.get n ++ [b]) else s.received := by
  unfold bitClock; split
  · simp
  · rfl

/-- Which lines count their bit clocks is read from the lines. -/
theorem counting_congr {s t : State} (h : t.lines = s.lines) (n : Line) : t.counting n = s.counting n := by
  simp only [State.counting, State.running, h]

/-- Which lines run is read from the lines. -/
theorem running_congr {s t : State} (h : t.lines = s.lines) (n : Line) : t.running n = s.running n := by
  simp only [State.running, h]

/-- Every store after bit clocks: only a running line's store changes, and no frame in it. -/
theorem bitClocks_stores (n : Line) (bits : List Bool) (s : State) :
    (∀ x, (s.stores.get x).SameFrames ((bitClocks n bits s).stores.get x))
      ∧ (∀ x, x ≠ n → (bitClocks n bits s).stores.get x = s.stores.get x)
      ∧ (s.running n = false → (bitClocks n bits s).stores = s.stores) := by
  induction bits generalizing s with
  | nil => exact ⟨fun _ => .refl _, fun _ _ => rfl, fun _ => rfl⟩
  | cons b bits ih =>
    have e : bitClocks n (b :: bits) s = bitClocks n bits (bitClock n b s) := rfl
    obtain ⟨h1, h2, h3⟩ := ih (bitClock n b s)
    rw [e]
    refine ⟨fun x => (bitClock_same n x b s).trans (h1 x), fun x hx => ?_, fun hr => ?_⟩
    · rw [h2 x hx, bitClock_stores, if_neg (fun c => hx c.1)]
    · rw [h3 (by rw [running_congr (bitClock_frame n b s).1]; exact hr)]
      exact Tab.ext_get fun x => by rw [bitClock_stores, if_neg (by simp [hr])]

/-- The bits received after bit clocks. -/
theorem bitClocks_received (n : Line) (bits : List Bool) (s : State) :
    (bitClocks n bits s).received.get n = (if s.counting n then s.received.get n ++ bits else s.received.get n)
      ∧ ∀ x, x ≠ n → (bitClocks n bits s).received.get x = s.received.get x := by
  induction bits generalizing s with
  | nil => exact ⟨by simp [bitClocks], fun _ _ => rfl⟩
  | cons b bits ih =>
    have e : bitClocks n (b :: bits) s = bitClocks n bits (bitClock n b s) := rfl
    obtain ⟨h1, h2⟩ := ih (bitClock n b s)
    rw [e, h1, counting_congr (bitClock_frame n b s).1, bitClock_received]
    refine ⟨?_, fun x hx => ?_⟩
    · by_cases hc : s.counting n = true <;> simp [hc]
    · rw [h2 x hx, bitClock_received]; split <;> simp [hx]

/-- A property that every bit clock keeps is kept by bit clocks. -/
theorem bitClocks_keeps {P : State → Prop} (hb : ∀ n b s, P s → P (bitClock n b s)) (n : Line) (bits : List Bool)
    {s : State} (h : P s) : P (bitClocks n bits s) :=
  foldl_invariant P _ (fun t b => hb n b t) _ _ h

/-- A property that every bit clock keeps is kept by those of a generator's frame. -/
theorem frameBitClocks_keeps {P : State → Prop} (hb : ∀ n b s, P s → P (bitClock n b s)) (g : Fin 2)
    (samples : Tab (List Bool) 8) {s : State} (h : P s) : P (frameBitClocks g samples s) := by
  refine foldl_invariant P _ (fun t n ht => ?_) _ _ h
  split
  · split
    · exact bitClocks_keeps hb _ _ ht
    · exact ht
  · exact ht

/-- The bit clocks of a generator's frame change no frame of a store. -/
theorem frameBitClocks_same (g : Fin 2) (samples : Tab (List Bool) 8) (s : State) (x : Line) :
    (s.stores.get x).SameFrames ((frameBitClocks g samples s).stores.get x) :=
  frameBitClocks_keeps (P := fun t => (s.stores.get x).SameFrames (t.stores.get x))
    (fun n b _ h => h.trans (bitClock_same n x b _)) g samples (.refl _)

end Sys2Proof.Machine
end

