-- ==== Sys2Proof/Laws/Lines.lean ====
section
/-! SUPPORT. What the operations of the lines do, said once: stores, boundaries, stops, the host line block, selection. -/

namespace Sys2Proof.Machine

/-! ### Stores (Chapter 3) -/

/-- A release makes no buffer READY or FILLING. -/
theorem Buffer.release_state (y : Line) (b : Buffer) (h : b.state = .free ∨ b.state = .retired) :
    (b.release y).state = .free ∨ (b.release y).state = .retired := by
  unfold Buffer.release; split
  · split
    · left; rfl
    · exact h
  · exact h

/-- An emptied buffer is FREE or RETIRED. -/
theorem Buffer.emptied_state (b : Buffer) : b.emptied.state = .free ∨ b.emptied.state = .retired := by
  unfold Buffer.emptied; cases h : b.state <;> simp [h, Buffer.become]
  split <;> simp

/-- Each buffer after a release. -/
theorem Store.release_buffer (y : Line) (st : Store) (i : Fin 4) :
    (st.release y).buffers.get i = (st.buffers.get i).release y := by
  simp [Store.release]

/-- Each buffer after an emptying. -/
theorem Store.emptied_buffer (st : Store) (i : Fin 4) : st.emptied.buffers.get i = (st.buffers.get i).emptied := by
  simp [Store.emptied]

/-- A store that receives nothing and holds no frame to take: every buffer FREE or RETIRED, no discard, the line frame
count as given. -/
def QuietStore (fc : BitVec 32) (st : Store) : Prop :=
  (∀ i, (st.buffers.get i).state = .free ∨ (st.buffers.get i).state = .retired) ∧ st.discarding = false ∧ st.frameCount = fc

/-- A release keeps a quiet store. -/
theorem QuietStore.release {fc st} (y : Line) (h : QuietStore fc st) : QuietStore fc (st.release y) :=
  ⟨fun i => by rw [Store.release_buffer]; exact Buffer.release_state _ _ (h.1 i), h.2⟩

/-- An emptied store is quiet. -/
theorem Store.emptied_quiet (st : Store) : QuietStore st.frameCount st.emptied :=
  ⟨fun i => by rw [Store.emptied_buffer]; exact Buffer.emptied_state _, rfl, rfl⟩

/-- A release leaves the FILLING buffer. -/
theorem Store.release_filling (n : Line) (st : Store) : (st.release n).filling = st.filling := by
  have key : ∀ b : Buffer, ((b.release n).state == .filling) = (b.state == .filling) := by
    intro b; unfold Buffer.release; split
    · split
      · next h => simp [Buffer.become, h.1]
      · rfl
    · rfl
  simp only [Store.filling, Store.release_buffer, key]

/-- A released reader holds nothing. -/
theorem Reader.released_held (r : Reader) (st : Store) : (r.released st).held = none := by
  unfold Reader.released; split <;> simp_all

/-- The ready frames of a store. -/
theorem Store.mem_readyFrames (st : Store) (i : Fin 4) (f) :
    (i, f) ∈ st.readyFrames ↔ (st.buffers.get i).state = .ready ∧ (st.buffers.get i).number = some f := by
  simp only [Store.readyFrames, List.mem_filterMap, Option.map_eq_some_iff, Buffer.readyNumber]
  constructor
  · rintro ⟨a, -, n, h, e⟩; cases e; split at h
    · exact ⟨by assumption, h⟩
    · cases h
  · rintro ⟨h1, h2⟩; exact ⟨i, (by decide : ∀ i : Fin 4, i ∈ ([0, 1, 2, 3] : List (Fin 4))) i, f, by simp [h1, h2], rfl⟩

/-- The line frame count after a completion (R44). -/
theorem Store.complete_frameCount (st : Store) (d : Bool) (f : List Word) :
    (st.complete d f).frameCount = if st.receiving then st.frameCount + 1 else st.frameCount := by
  unfold Store.complete Store.receiving
  cases h : st.filling with
  | some i => simp
  | none => cases st.discarding <;> simp

/-- Every store after a change of one. -/
theorem modifyStore_stores (n m : Line) (f : Store → Store) (s : State) :
    (modifyStore n f s).stores.get m = if m = n then f (s.stores.get n) else s.stores.get m := by
  simp [modifyStore, Tab.get_put]

/-- Every store after an overrun. -/
theorem overrun_stores (n m : Line) (s : State) :
    (overrun n s).stores.get m = if m = n then { s.stores.get n with overrunRun := true } else s.stores.get m := by
  unfold overrun; dsimp only; split <;> simp [modifyStore_stores]

/-- Every counter after an overrun. -/
theorem overrun_counter (n m : Line) (j : Fin 8) (s : State) :
    (overrun n s).counter m j = if m = n ∧ j = OVERRUNS then satInc (s.counter n OVERRUNS) else s.counter m j := by
  rw [← countUp_counter]
  apply counter_congr
  unfold overrun; dsimp only; split <;> simp [modifyStore]

/-- Every store after an acquisition (R45, R46). -/
theorem acquire_stores (n m : Line) (s : State) :
    (acquire n s).stores.get m = if m = n then
      (match (s.stores.get n).choose with
       | some i => { (s.stores.get n).modify i (fun b => b.become .filling) with overrunRun := false }
       | none => { s.stores.get n with discarding := true, overrunRun := true })
     else s.stores.get m := by
  unfold acquire; split
  · next h => simp [h, modifyStore_stores]
  · next h => simp only [h, modifyStore_stores, overrun_stores]; split <;> simp_all

/-- An acquisition leaves the line frame counts. -/
theorem acquire_frameCount (n m : Line) (s : State) :
    ((acquire n s).stores.get m).frameCount = (s.stores.get m).frameCount := by
  rw [acquire_stores]; split
  · next h => subst h; split <;> rfl
  · rfl

/-- Every counter after an acquisition. -/
theorem acquire_counter (n m : Line) (j : Fin 8) (s : State) :
    (acquire n s).counter m j = if (s.stores.get n).choose = none ∧ m = n
        ∧ j = OVERRUNS then satInc (s.counter n OVERRUNS) else s.counter m j := by
  unfold acquire; split
  · next h => simp [h, State.counter, modifyStore]
  · next h => simp [h]; rw [← overrun_counter]; apply counter_congr; simp [modifyStore]

/-! ### Boundaries (Chapters 1 to 4, 7 and 9) -/

/-- Every line after a lock. -/
theorem lock_lines (n m : Line) (s : State) :
    (lock n s).lines.get m = if m = n
        then { s.lines.get n with receiver := .locked, verifyCount := 0, earlyCount := 0, rxRef := none }
            else s.lines.get m := by
  unfold lock; dsimp only; split <;> simp [Tab.get_put]

/-- Every line after the frame timer is armed anew. -/
theorem rearm_lines (n m : Line) (e) (s : State) :
    (rearm n e s).lines.get m = if m = n then { s.lines.get n with earlyCount := e, timerArmed := true }
        else s.lines.get m := by
  simp [rearm, Tab.get_put]

/-- Every line after a receiver has taken a state. -/
theorem enterReceiver_lines (n m : Line) (r) (s : State) :
    (enterReceiver n r s).lines.get m = if m = n then (s.lines.get n).enter r else s.lines.get m := by
  simp [enterReceiver, Tab.get_put]

/-- A verdict leaves the stores. -/
theorem report_stores (n : Line) (v : Verdict) (s : State) : (report n v s).stores = s.stores := by simp

/-- A verdict leaves the counters of the other lines. -/
theorem report_counter_ne (n m : Line) (v : Verdict) (j : Fin 8) (s : State) (h : m ≠ n) :
    (report n v s).counter m j = s.counter m j := by
  simp [report, countUpIf_counter, h]; rfl

/-- Every line after a boundary at the receive side. -/
theorem receiveBoundary_lines (n m : Line) (f : List Word) (sh : Bool) (s : State) :
    (receiveBoundary n f sh s).lines.get m = if m = n ∧ (s.stores.get n).receiving = true then
      { s.lines.get n with rxRef := (judge (s.lines.get n) f sh).ref } else s.lines.get m := by
  unfold receiveBoundary; split
  · next h => simp [h, report, Tab.get_put]
  · next h => simp [h]

/-- Every line frame count after a boundary at the receive side. -/
theorem receiveBoundary_frameCount (n m : Line) (f : List Word) (sh : Bool) (s : State) :
    ((receiveBoundary n f sh s).stores.get m).frameCount = if m = n
        ∧ (s.stores.get n).receiving = true then (s.stores.get n).frameCount + 1 else (s.stores.get m).frameCount := by
  unfold receiveBoundary; split
  · next h =>
    simp only [advanceWindow_frame, acquire_frameCount, modifyStore_stores, report_stores, h]
    by_cases hm : m = n <;> simp [hm, Store.complete_frameCount, h]
  · next h => simp [acquire_frameCount, h]

/-- Every damage window after a frame (R148, R149). -/
theorem advanceWindow_windows (n m : Line) (d : Bool) (s : State) :
    (advanceWindow n d s).windows.get m = if m = n then
       (if ((s.windows.get n).advance d).reaches (s.lines.get n).config.damageThreshold then
         ({ (s.windows.get n).advance d with reported := true } : Window).close
             else ((s.windows.get n).advance d).close) else s.windows.get m := by
  unfold advanceWindow; dsimp only; split <;> simp [Tab.get_put]

/-- A boundary at the receive side leaves the other damage windows. -/
theorem receiveBoundary_windows (n m : Line) (hm : m ≠ n) (f : List Word) (sh : Bool) (s : State) :
    (receiveBoundary n f sh s).windows.get m = s.windows.get m := by
  unfold receiveBoundary; split
  · simp [advanceWindow_windows, hm]
  · simp

/-- A boundary at the receive side leaves the other counters. -/
theorem receiveBoundary_counter_ne (n m : Line) (hm : m ≠ n) (f : List Word) (sh : Bool) (s : State) (j : Fin 8) :
    (receiveBoundary n f sh s).counter m j = s.counter m j := by
  unfold receiveBoundary; split
  · rw [counter_congr (advanceWindow_frame ..).2.2.2.2.2.2.2.2.2.2.1] <;> simp [acquire_counter, hm]
    rw [counter_congr (modifyStore_frame ..).2.2.2.2.2.2.2.2.2.2.1, report_counter_ne _ _ _ _ _ hm]
  · simp [acquire_counter, hm]

/-- Every reader after a boundary at the transmit side. -/
theorem transmitBoundary_readers (n m : Line) (s : State) :
    (transmitBoundary n s).readers.get m
        = if m = n then Tab.of (fun x => ((s.readers.get n).get x).released (s.stores.get x)) else s.readers.get m := by
  simp [transmitBoundary, releaseHolds, Tab.get_put]

/-- Every store after a boundary at the transmit side. -/
theorem transmitBoundary_stores (n m : Line) (s : State) :
    (transmitBoundary n s).stores.get m = (s.stores.get m).release n := by
  simp [transmitBoundary, releaseHolds]

/-- The adoption set after a boundary at the transmit side. -/
theorem transmitBoundary_adoptionSet (n m : Line) (s : State) :
    (transmitBoundary n s).bc.adoptionSet.get m = (s.bc.adoptionSet.get m && m != n) := by
  simp [transmitBoundary, adopt_adoptionSet]

/-- The load queue after a boundary at the transmit side. -/
theorem transmitBoundary_loadQueue (n : Line) (s : State) :
    (transmitBoundary n s).arb.loadQueue = s.arb.loadQueue.filter (· != n) ++ [n] := by
  simp [transmitBoundary, placeLoad]

/-! ### Stops (R20, R51, R71, R85, R101, R122, R150) -/

/-- Every reader after a stop at the transmit side. -/
theorem transmitStop_readers (n m : Line) (s : State) :
    (transmitStop n s).readers.get m = if m = n then Tab.all 9 .reset else s.readers.get m := by
  simp [transmitStop, dropHolds, Tab.get_put]

/-- Every store after a stop at the transmit side. -/
theorem transmitStop_stores (n m : Line) (s : State) :
    (transmitStop n s).stores.get m = (s.stores.get m).release n := by
  simp [transmitStop, dropHolds]

/-- Every assembler after a stop at the transmit side. -/
theorem transmitStop_txas (n m : Line) (s : State) :
    (transmitStop n s).txas.get m = if m = n then { s.txas.get n with fixed := none } else s.txas.get m := by
  simp [transmitStop, dropHolds, Tab.get_put]

/-- The load queue after a stop at the transmit side. -/
theorem transmitStop_loadQueue (n : Line) (s : State) :
    (transmitStop n s).arb.loadQueue = s.arb.loadQueue.filter (· != n) := by
  simp [transmitStop, withdrawLoad, dropHolds]

/-- The adoption set after a stop at the transmit side. -/
theorem transmitStop_adoptionSet (n m : Line) (s : State) :
    (transmitStop n s).bc.adoptionSet.get m = (s.bc.adoptionSet.get m && m != n) := by
  simp [transmitStop, withdrawLoad, adopt_adoptionSet, dropHolds]

/-- Every store after a stop at the receive side. -/
theorem receiveStop_stores (n m : Line) (s : State) :
    (receiveStop n s).stores.get m = if m = n then (s.stores.get n).emptied else s.stores.get m := by
  simp [receiveStop, modifyStore, Tab.get_put]

/-- Every damage window after a stop at the receive side. -/
theorem receiveStop_windows (n m : Line) (s : State) :
    (receiveStop n s).windows.get m = if m = n then .reset else s.windows.get m := by
  simp [receiveStop, modifyStore, Tab.get_put]

/-- What a stop leaves of line `n`: cursors NONE and no hold, a quiet store with the line frame count kept, no waiting
load, no place in the adoption set, no fixed frame, and the damage window reset. -/
structure Stopped (n : Line) (fc : BitVec 32) (t : State) : Prop where
  readers : t.readers.get n = Tab.all 9 .reset
  store : QuietStore fc (t.stores.get n)
  load : n ∉ t.arb.loadQueue
  set : t.bc.adoptionSet.get n = false
  fixed : (t.txas.get n).fixed = none
  window : t.windows.get n = .reset

/-- A stop stops its line. -/
theorem stopLine_stopped (n : Line) (s : State) : Stopped n (s.stores.get n).frameCount (stopLine n s) := by
  refine ⟨?_, ?_, ?_, ?_, ?_, ?_⟩
  · simp [stopLine, transmitStop_readers]
  · simp only [stopLine, transmitStop_stores, receiveStop_stores,
      if_true]; exact QuietStore.release _ (Store.emptied_quiet _)
  · simp [stopLine, transmitStop_loadQueue]
  · simp [stopLine, transmitStop_adoptionSet]
  · simp [stopLine, transmitStop_txas]
  · simp [stopLine, receiveStop_windows]

/-- What a stop does to every other line. -/
theorem stopLine_other {n m : Line} (h : m ≠ n) (s : State) :
    (stopLine n s).readers.get m = s.readers.get m ∧ (stopLine n s).stores.get m = (s.stores.get m).release n
    ∧ (stopLine n s).bc.adoptionSet.get m = s.bc.adoptionSet.get m ∧ (stopLine n s).txas.get m = s.txas.get m
    ∧ (stopLine n s).windows.get m = s.windows.get m ∧ (m ∈ (stopLine n s).arb.loadQueue ↔ m ∈ s.arb.loadQueue) := by
  refine ⟨?_, ?_, ?_, ?_, ?_, ?_⟩
  · simp [stopLine, transmitStop_readers, h]
  · simp [stopLine, transmitStop_stores, receiveStop_stores, h]
  · simp [stopLine, transmitStop_adoptionSet, h]
  · simp [stopLine, transmitStop_txas, h]
  · simp [stopLine, receiveStop_windows, h]
  · simp [stopLine, transmitStop_loadQueue, h]

/-- Every line after a disable. -/
theorem disableLine_lines (n m : Line) (s : State) : (disableLine n s).lines.get m
    = if m = n then { (s.lines.get n).enter .disabled with enabled := false } else s.lines.get m := by
  unfold disableLine; dsimp only; split <;> simp [Tab.get_put]

/-- What a disable does beside the stop. -/
theorem disableLine_rest (n : Line) (s : State) :
   (disableLine n s).readers = (stopIfRunning n s).readers ∧ (disableLine n s).stores = (stopIfRunning n s).stores
   ∧ (disableLine n s).windows = (stopIfRunning n s).windows ∧ (disableLine n s).txas = (stopIfRunning n s).txas
   ∧ (disableLine n s).bc = (stopIfRunning n s).bc ∧ (disableLine n s).arb = (stopIfRunning n s).arb
   ∧ (disableLine n s).evq = (stopIfRunning n s).evq ∧ (disableLine n s).irq = (stopIfRunning n s).irq
   ∧ (disableLine n s).host = if n = hostLine then s.host.disabled else s.host := by
  unfold disableLine; dsimp only; split <;> simp

/-- Every line after a restart. -/
theorem restartLine_lines (n m : Line) (s : State) : (restartLine n s).lines.get m
    = if m = n then { (s.lines.get n).enter .hunt with txCounter := 0, rxRef := none } else s.lines.get m := by
  unfold restartLine zeroLastWords; dsimp only; split <;> simp [Tab.get_put]

/-- What a restart does beside the stop. -/
theorem restartLine_rest (n : Line) (s : State) :
   (restartLine n s).readers = (stopIfRunning n s).readers ∧ (restartLine n s).stores = (stopIfRunning n s).stores
   ∧ (restartLine n s).windows = (stopIfRunning n s).windows.put n .reset
   ∧ (restartLine n s).txas = (stopIfRunning n s).txas.put n
       { (stopIfRunning n s).txas.get n with lastWords := List.replicate (Config.lineWords n) 0 }
   ∧ (restartLine n s).bc = (stopIfRunning n s).bc ∧ (restartLine n s).arb = (stopIfRunning n s).arb
   ∧ (restartLine n s).evq = (stopIfRunning n s).evq ∧ (restartLine n s).irq = (stopIfRunning n s).irq
   ∧ (restartLine n s).host = if n = hostLine then s.host.clearInsert else s.host := by
  unfold restartLine zeroLastWords; dsimp only; split <;> simp

/-- Every line after its generator has stopped. -/
theorem haltLine_lines (n m : Line) (s : State) : (haltLine n s).lines.get m
    = if m = n then (s.lines.get n).enter .hunt else s.lines.get m := by
  simp [haltLine, enterReceiver, Tab.get_put]

/-- What a halt does beside the stop. -/
theorem haltLine_rest (n : Line) (s : State) :
   (haltLine n s).readers = (stopIfRunning n s).readers ∧ (haltLine n s).windows = (stopIfRunning n s).windows
   ∧ (haltLine n s).txas = (stopIfRunning n s).txas ∧ (haltLine n s).stores = (stopIfRunning n s).stores
   ∧ (haltLine n s).bc = (stopIfRunning n s).bc
   ∧ (haltLine n s).evq = (stopIfRunning n s).evq ∧ (haltLine n s).irq = (stopIfRunning n s).irq := by
  simp [haltLine]

/-- A loss of sync stops the line. -/
theorem enterLost_stopped (n : Line) (tx : Bool) (s : State) : Stopped n (s.stores.get n).frameCount (enterLost n tx s) := by
  have q := Store.emptied_quiet (s.stores.get n)
  have qr : QuietStore (s.stores.get n).frameCount ((s.stores.get n).release n).emptied := Store.emptied_quiet
      ((s.stores.get n).release n)
  unfold enterLost; dsimp only; split
  · refine ⟨?_, ?_, ?_, ?_, ?_, ?_⟩
    · simp [transmitStop_readers]
    · rw [receiveStop_stores]; simp [transmitStop_stores]; exact qr
    · simp [transmitStop_loadQueue]
    · simp [transmitStop_adoptionSet]
    · have : ∀ u : State, (u.txas.get n).fixed = none → ((reportLost n u).txas.get n).fixed = none := by
        intro u hu
        have sus : ∀ m (v : State), (v.txas.get n).fixed = none → ((suspendIfIsolating m v).txas.get n).fixed = none := by
          intro m v hv; unfold suspendIfIsolating suspend; split
          · simp [Tab.get_put]; split
            · next e => subst e; exact hv
            · exact hv
          · exact hv
        have ac : ∀ m c (v : State), (v.txas.get n).fixed = none → ((addCause m c v).txas.get n).fixed = none := by
          intro m c v hv; unfold addCause; split
          · exact hv
          · apply sus; simpa using hv
        unfold reportLost addOwnCause; split
        · simpa using hu
        · split
          · refine foldl_invariant (fun t => (t.txas.get n).fixed = none) _ ?_ _ _ (ac _ _ _ (by simpa using hu))
            intro t a ht; split
            · exact ac _ _ _ ht
            · exact ht
          · exact ac _ _ _ (by simpa using hu)
      simp only [receiveStop_frame]
      apply this; simp [transmitStop_txas]
    · simp [receiveStop_windows]
  · refine ⟨?_, ?_, ?_, ?_, ?_, ?_⟩
    · simp [transmitStop_readers]
    · rw [transmitStop_stores, receiveStop_stores]; simp; exact QuietStore.release _ q
    · simp [transmitStop_loadQueue]
    · simp [transmitStop_adoptionSet]
    · simp [transmitStop_txas]
    · simp [receiveStop_windows]

/-- What a loss of sync does beside the stop (R19). -/
theorem enterLost_rest (n m : Line) (tx : Bool) (s : State) :
    ((enterLost n tx s).lines.get m = if m = n then (s.lines.get n).enter .lost else s.lines.get m)
    ∧ (∀ j, (enterLost n tx s).counter m j = if m = n ∧ j = SYNC_LOSSES then satInc (s.counter n j) else s.counter m j)
    ∧ (m ≠ n → (enterLost n tx s).readers.get m = s.readers.get m)
    ∧ (m ≠ n → (enterLost n tx s).windows.get m = s.windows.get m)
    ∧ ((enterLost n tx s).causes.get n).lost = true := by
  refine ⟨?_, ?_, ?_, ?_, ?_⟩
  · unfold enterLost; dsimp only; split <;> simp [enterReceiver_lines]
  · intro j
    have : (enterLost n tx s).counters = (countUp n SYNC_LOSSES s).counters := by
      unfold enterLost; dsimp only; split <;> simp
    rw [counter_congr this, countUp_counter]; split
    · next h => rw [h.2]
    · rfl
  · intro h; unfold enterLost; dsimp only; split <;> simp [transmitStop_readers, h]
  · intro h; unfold enterLost; dsimp only; split <;> simp [receiveStop_windows, h]
  · unfold enterLost; dsimp only; split
    · simp; exact addOwnCause_has n .lost _
    · simp; exact addOwnCause_has n .lost _

/-! ### The host line block (Chapter 8) -/

/-- The receive side of a line at a frame start: a physical receiver or the host line block. -/
theorem receivePart_cases (n : Line) (s : State) :
    (∃ p : PhysLine, ∃ f, n = p.line ∧ receivePart n s = beginFrame n (receiveBoundary n f false s))
      ∨ (n = hostLine ∧ receivePart n s = hostBoundary s) := by
  unfold receivePart
  split
  · next h => exact .inr ⟨h, rfl⟩
  · next h =>
    have hn : n.val < 8 := by
      have : n.val ≠ 8 := fun e => h (Fin.ext e)
      omega
    exact .inl ⟨⟨n.val, hn⟩, _, rfl, rfl⟩

/-- The host line block after a capture (R138, R139). -/
theorem appendCapture_host (c) (s : State) :
    (appendCapture c s).host = if s.host.captures.length < 8
        then { s.host with captures := s.host.captures ++ [c], overflowRun := false }
            else { s.host with overflowRun := true } := by
  unfold appendCapture; split
  · next h => rw [if_pos (show s.host.captures.length < 8 from h)]; rfl
  · next h =>
    rw [if_neg (show ¬ s.host.captures.length < 8 from h)]; dsimp only
    by_cases hr : s.host.overflowRun = true
    · rw [if_pos hr]; simp
    · rw [if_neg hr]; simp

/-- Every counter after a capture. -/
theorem appendCapture_counter (c) (s : State) (m j) :
    (appendCapture c s).counter m j = if 8 ≤ s.host.captures.length ∧ m = hostLine
        ∧ j = CAPTURE_OVERFLOWS then satInc (s.counter m j) else s.counter m j := by
  unfold appendCapture; split
  · next h => rw [if_neg (by simp only [Config.captureCapacity] at h; omega)]; rfl
  · next h =>
    have h8 : 8 ≤ s.host.captures.length := by simp only [Config.captureCapacity] at h; omega
    have e : (countUp hostLine CAPTURE_OVERFLOWS s).counter m j = if 8 ≤ s.host.captures.length ∧ m = hostLine
        ∧ j = CAPTURE_OVERFLOWS then satInc (s.counter m j) else s.counter m j := by
      rw [countUp_counter]; simp only [h8, true_and]; split
      · next h2 => obtain ⟨rfl, rfl⟩ := h2; rfl
      · rfl
    rw [← e]; dsimp only
    by_cases hr : s.host.overflowRun = true
    · rw [if_pos hr]; rfl
    · rw [if_neg hr]; apply counter_congr; simp

/-- A delivery appends the captured form of a fixed frame, if there is one. -/
theorem deliverCapture_cases (s : State) :
    ∃ u, u.host = s.host ∧ u.counters = s.counters ∧ u.stores = s.stores ∧ u.evq = s.evq
    ∧ (∀ m, m ≠ hostLine → u.txas.get m = s.txas.get m)
    ∧ deliverCapture s = (match (s.txas.get hostLine).fixed with
       | some f => appendCapture (captureOf f (s.txas.get hostLine).spanSuspended) u
       | none => u) := by
  refine ⟨s.withTxas (s.txas.put hostLine
      { s.txas.get hostLine with fixed := none, spanSuspended := (s.txas.get hostLine).suspended }), rfl, rfl, rfl,
          rfl, ?_, rfl⟩
  intro m hm; simp [hm]

/-- What a delivery leaves of the host line block. -/
theorem deliverCapture_host (s : State) :
    (deliverCapture s).host.insertPending = s.host.insertPending ∧ (deliverCapture s).host.compose = s.host.compose
    ∧ (deliverCapture s).host.readIndex = s.host.readIndex
        ∧ (deliverCapture s).host.underrunArmed = s.host.underrunArmed := by
  obtain ⟨u, h1, h2, h3, h4, h5, e⟩ := deliverCapture_cases s
  rw [e]; split
  · rw [appendCapture_host, h1]; split <;> simp
  · simp [h1]

/-- Every counter after a delivery. -/
theorem deliverCapture_counter (s : State) (m j) :
    (deliverCapture s).counter m j = if (s.txas.get hostLine).fixed.isSome ∧ 8 ≤ s.host.captures.length
        ∧ m = hostLine ∧ j = CAPTURE_OVERFLOWS then satInc (s.counter m j) else s.counter m j := by
  obtain ⟨u, h1, h2, h3, h4, h5, e⟩ := deliverCapture_cases s
  rw [e]; split
  · next f hf => rw [appendCapture_counter, h1, counter_congr h2]; simp [hf]
  · next hf => rw [counter_congr h2]; simp [hf]

/-- A hand-over places the pending frame. -/
theorem handOver_some {f} {s : State} (h : s.host.insertPending = some f) :
   handOver s = placeInsert f (s.withHost { s.host with insertPending := none, underrunArmed := true })
       := by simp only [handOver, h]

/-- The host line block after a hand-over or an underrun (R134, R135). -/
theorem handOver_host (s : State) : (handOver s).host
    = { s.host with insertPending := none, underrunArmed := s.host.insertPending.isSome } := by
  unfold handOver; split
  · next h => simp [h]
  · next h => split
              · simp [h]
              · next hu =>
                have hu' : s.host.underrunArmed = false := by simpa using hu
                simp [h]; rw [← hu']; rw [← h]

/-- Every counter after a hand-over or an underrun. -/
theorem handOver_counter (s : State) (m j) : (handOver s).counter m j =
   (match s.host.insertPending with
    | some _ => if (s.stores.get hostLine).choose = none ∧ m = hostLine
        ∧ j = OVERRUNS then satInc (s.counter m j) else s.counter m j
    | none => if m = hostLine ∧ j = INSERT_UNDERRUNS then satInc (s.counter m j) else s.counter m j) := by
  cases h : s.host.insertPending with
  | some f =>
    rw [handOver_some h]; simp only [placeInsert]
    split
    · next h2 => simp at h2; simp [h2]; apply counter_congr; simp
    · next h2 =>
      simp at h2; simp only [h2, true_and]
      rw [counter_congr (modifyStore_frame ..).2.2.2.2.2.2.2.2.2.2.1, overrun_counter]
      split
      · next h3 => obtain ⟨rfl, rfl⟩ := h3; rfl
      · rfl
  | none =>
    simp only [handOver, h]
    have : ∀ u : State, (countUp hostLine INSERT_UNDERRUNS s).counter m j = if m = hostLine
        ∧ j = INSERT_UNDERRUNS then satInc (s.counter m j) else s.counter m j := by
      intro _; rw [countUp_counter]; split
      · next h3 => obtain ⟨rfl, rfl⟩ := h3; rfl
      · rfl
    split
    · rw [← this s]; apply counter_congr; simp
    · exact this s

/-- Every store after a hand-over or an underrun. -/
theorem handOver_stores (s : State) (m) : (handOver s).stores.get m =
   (match s.host.insertPending with
    | some f => if m = hostLine then (match (s.stores.get hostLine).choose with
        | some i => { (s.stores.get hostLine).modify i (fun b => b.take ((s.stores.get hostLine).frameCount + 1) false f.words) with frameCount := (s.stores.get hostLine).frameCount + 1, overrunRun := false }
        | none => { s.stores.get hostLine with overrunRun := true, frameCount := (s.stores.get hostLine).frameCount + 1 }) else s.stores.get m
    | none => s.stores.get m) := by
  cases h : s.host.insertPending with
  | some f =>
    rw [handOver_some h]; simp only [placeInsert]
    split
    · next h2 => simp at h2; simp only [h2, modifyStore_stores, State.withHost_stores]
    · next h2 => simp at h2; simp only [h2, modifyStore_stores, State.withHost_stores, overrun_stores]; split <;> simp_all
  | none => simp only [handOver, h]; split <;> simp

/-! ### Selection (Chapter 4) -/

/-- The state after a selection, before its slips are reported. -/
def selected (y : Line) (program : List MapEntry) (s : State) : State :=
  ((s.withReaders (s.readers.put y (Tab.of fun x => (choiceOf s (s.lines.get y).config.checkEnable program
      x).reader))).withStores
      (Tab.of fun x => (choiceOf s (s.lines.get y).config.checkEnable program x).store y (s.stores.get x))).withTxas
      (s.txas.put y { s.txas.get y with
        program := some program
        views := Tab.of fun x => (choiceOf s (s.lines.get y).config.checkEnable program x).view (s.stores.get x) })

/-- A selection reports the slips of its choices in increasing order of line (R62). -/
theorem selectSources_eq (y : Line) (program : List MapEntry) (s : State) : selectSources y program s =
   allLines.foldl (fun u x => reportSlip y x ((choiceOf s (s.lines.get y).config.checkEnable program x).slip
       ((s.readers.get y).get x).cursor) u) (selected y program s) := rfl

/-- The reports of a selection change no reader, store or assembler. -/
theorem selectSources_eq_selected (y : Line) (program : List MapEntry) (s : State) :
   (selectSources y program s).readers = (selected y program s).readers
       ∧ (selectSources y program s).stores = (selected y program s).stores
           ∧ (selectSources y program s).txas = (selected y program s).txas := by
  rw [selectSources_eq]
  refine foldl_invariant (fun t => t.readers = (selected y program s).readers
      ∧ t.stores = (selected y program s).stores ∧ t.txas = (selected y program s).txas) _ ?_ _ _ ⟨rfl, rfl, rfl⟩
  intro t a ⟨h1, h2, h3⟩; simp [h1, h2, h3]

/-- A slip event leaves the counters. -/
theorem sendSlip_counters (k y x n) (s : State) : (sendSlip k y x n s).counters = s.counters := by simp

/-- Every counter after a slip report (R65). -/
theorem reportSlip_counter (y x m : Line) (sl : Slip) (j : Fin 8) (s : State) :
   (reportSlip y x sl s).counter m j =
     if m = y ∧ j = REPEAT_SLIPS ∧ sl = .repeated then satInc (s.counter m j)
     else if m = y ∧ j = DROP_SLIPS ∧ sl ≠ .none ∧ sl ≠ .repeated then satInc (s.counter m j) else s.counter m j := by
  cases sl with
  | none => simp [reportSlip]
  | repeated =>
    simp only [reportSlip]; rw [counter_congr (sendSlip_counters ..), countUp_counter]
    by_cases h : m = y <;> by_cases h2 : j = REPEAT_SLIPS <;> simp [h, h2]
  | dropped k =>
    simp only [reportSlip]; rw [counter_congr (sendSlip_counters ..), countUp_counter]
    by_cases h : m = y <;> by_cases h2 : j = DROP_SLIPS <;> simp [h, h2]

end Sys2Proof.Machine
end

