-- ==== Sys2Proof/Laws/PerInstr.lean ====
section
/-! SUPPORT. Per command: the bus access that issues a well-formed command decodes to that command. -/

namespace Sys2Proof.Laws.BusRoundTrip

/-- The access that issues a well-formed command is decoded to commands among which it stands. -/
def Statement (i : Instr) : Prop :=
  ∀ a, i.wellFormed = true → encodeAccess i = some a → i ∈ decodeAccess a

/-- A write that is not ignored and that decodes to commands among which `i` stands. -/
theorem of_write {i : Instr} {a : BitVec 6} {v : Word} (he : encodeAccess i = some (.write a v))
    (hm : i ∈ decodeWrite a v) : Statement i := by
  intro acc _ h
  rw [he] at h
  cases h
  exact hm

/-- A command that no bus access issues. -/
theorem of_event {i : Instr} (he : encodeAccess i = none) : Statement i := by
  intro acc _ h
  rw [he] at h
  cases h

theorem deviceReset : Statement .deviceReset := of_event rfl

theorem syncArrival (line : PhysLine) (samples : List Bool) (order : LineOrder) :
    Statement (.syncArrival line samples order) := of_event rfl

theorem timerExpiry (line : PhysLine) (expiry : Expiry) : Statement (.timerExpiry line expiry) := of_event rfl

theorem fgFrameStart (gen : Fin 2) (samples : Tab (List Bool) 8) (order : StartOrder) :
    Statement (.fgFrameStart gen samples order) := of_event rfl

theorem arbiterGrant : Statement .arbiterGrant := of_event rfl

theorem loadComplete : Statement .loadComplete := of_event rfl

theorem mapReadComplete : Statement .mapReadComplete := of_event rfl

theorem mapWriteComplete : Statement .mapWriteComplete := of_event rfl

theorem copyStepComplete : Statement .copyStepComplete := of_event rfl

theorem stretchLimitExpiry : Statement .stretchLimitExpiry := of_event rfl

theorem exchangeRestart : Statement .exchangeRestart := of_write rfl (by decide)

theorem commit : Statement .commit := of_write rfl (by decide)

theorem copy : Statement .copy := of_write rfl (by decide)

theorem lineEnable (value : Word) : Statement (.lineEnable value) :=
  of_write rfl (by simp [decodeWrite, writeIgnored, readOnlyAddress])

theorem lineDisable (value : Word) : Statement (.lineDisable value) :=
  of_write rfl (by simp [decodeWrite, writeIgnored, readOnlyAddress])

theorem lineRestart (value : Word) : Statement (.lineRestart value) :=
  of_write rfl (by simp [decodeWrite, writeIgnored, readOnlyAddress])

theorem enableRefusedRead : Statement .enableRefusedRead := by
  intro a _ h
  cases h
  decide

theorem fgPeriodWrite (gen : Fin 2) (value : Word) : Statement (.fgPeriodWrite gen value) :=
  of_write rfl (by match gen with
    | 0 => show _ ∈ decodeWrite 0x06 value; simp [decodeWrite, writeIgnored, readOnlyAddress]
    | 1 => show _ ∈ decodeWrite 0x08 value; simp [decodeWrite, writeIgnored, readOnlyAddress])

theorem fgPhaseWrite (gen : Fin 2) (value : Word) : Statement (.fgPhaseWrite gen value) :=
  of_write rfl (by match gen with
    | 0 => show _ ∈ decodeWrite 0x07 value; simp [decodeWrite, writeIgnored, readOnlyAddress]
    | 1 => show _ ∈ decodeWrite 0x09 value; simp [decodeWrite, writeIgnored, readOnlyAddress])

theorem fgStart (value : Word) : Statement (.fgStart value) := by
  intro a hw h
  cases h
  have hw' : fgHasStart value = true := hw
  simp [decodeAccess, decodeWrite, writeIgnored, readOnlyAddress, hw']

theorem fgStop (value : Word) : Statement (.fgStop value) := by
  intro a hw h
  cases h
  have hw' : fgHasStop value = true := hw
  simp [decodeAccess, decodeWrite, writeIgnored, readOnlyAddress, hw']

theorem groupPolicyWrite (value : Word) : Statement (.groupPolicyWrite value) :=
  of_write rfl (by simp [decodeWrite, writeIgnored, readOnlyAddress])

theorem lineRelease (value : Word) : Statement (.lineRelease value) :=
  of_write rfl (by simp [decodeWrite, writeIgnored, readOnlyAddress])

theorem groupRelease (value : Word) : Statement (.groupRelease value) :=
  of_write rfl (by simp [decodeWrite, writeIgnored, readOnlyAddress])

theorem tpCursorWrite (value : Word) : Statement (.tpCursorWrite value) :=
  of_write rfl (by simp [decodeWrite, writeIgnored, readOnlyAddress])

theorem tpControlWrite (value : Word) : Statement (.tpControlWrite value) :=
  of_write rfl (by simp [decodeWrite, writeIgnored, readOnlyAddress])

theorem tpDataWrite (index : Fin 4) (value : Word) : Statement (.tpDataWrite index value) :=
  of_write rfl (by match index with
    | 0 => show _ ∈ decodeWrite 0x12 value; simp [decodeWrite, writeIgnored, readOnlyAddress]
    | 1 => show _ ∈ decodeWrite 0x13 value; simp [decodeWrite, writeIgnored, readOnlyAddress]
    | 2 => show _ ∈ decodeWrite 0x14 value; simp [decodeWrite, writeIgnored, readOnlyAddress]
    | 3 => show _ ∈ decodeWrite 0x15 value; simp [decodeWrite, writeIgnored, readOnlyAddress])

theorem tpRead : Statement .tpRead := of_write rfl (by decide)

theorem tpWrite : Statement .tpWrite := of_write rfl (by decide)

theorem irqStatusWrite (value : Word) : Statement (.irqStatusWrite value) :=
  of_write rfl (by simp [decodeWrite, writeIgnored, readOnlyAddress])

theorem irqEnableWrite (value : Word) : Statement (.irqEnableWrite value) :=
  of_write rfl (by simp [decodeWrite, writeIgnored, readOnlyAddress])

theorem evqCountWrite (value : Word) : Statement (.evqCountWrite value) :=
  of_write rfl (by simp [decodeWrite, writeIgnored, readOnlyAddress])

theorem evqHead0Read : Statement .evqHead0Read := by
  intro a _ h
  cases h
  decide

theorem evqPop (value : Word) : Statement (.evqPop value) :=
  of_write rfl (by simp [decodeWrite, writeIgnored, readOnlyAddress])

theorem insertDataWrite (value : Word) : Statement (.insertDataWrite value) :=
  of_write rfl (by simp [decodeWrite, writeIgnored, readOnlyAddress])

theorem submit : Statement .submit := of_write rfl (by decide)

theorem discard : Statement .discard := of_write rfl (by decide)

theorem captureDataRead : Statement .captureDataRead := by
  intro a _ h
  cases h
  decide

theorem capturePop (value : Word) : Statement (.capturePop value) :=
  of_write rfl (by simp [decodeWrite, writeIgnored, readOnlyAddress])

theorem registerWriteIgnored (address : BitVec 6) (value : Word) : Statement (.registerWriteIgnored address value) := by
  intro a hw h
  cases h
  have hw' : writeIgnored address value = true := hw
  simp [decodeAccess, decodeWrite, hw']

end Sys2Proof.Laws.BusRoundTrip
end

