-- ==== Sys2Proof/Laws/Step.lean ====
section
/-! SUPPORT. What a step can do, said once: the cases of `step` and `exec`, and how an invariant of the device follows from
the effects of the commands. -/

namespace Sys2Proof.Machine

/-- On an empty queue a step is the next bit clock, or idles; else it carries out the command at the front. -/
theorem step_cases {s t : State} (h : step s = .next t) :
    (s.pending = [] ∧ t = tick s) ∨ ∃ c rest, s.pending = c :: rest ∧ exec c (s.withPending rest) = .next t := by
  unfold step at h
  split at h
  · exact .inl ⟨‹_›, by cases h; rfl⟩
  · exact .inr ⟨_, _, ‹_›, h⟩

/-- The effect of an event command on the state. Host accesses have theirs in `takeHeld`. -/
inductive EventEffect (s : State) : State → Prop where
  | deviceReset : EventEffect s (deviceReset s)
  | syncArrival (p : PhysLine) (sm : List Bool) (tx : Bool) (tn : List Nat) :
      EventEffect s (syncArrival p.line sm tx tn s)
  | timerExpiry (p : PhysLine) (sm : List Bool) (tx : Bool) (tn : List Nat) :
      EventEffect s (timerExpiry p.line sm tx tn s)
  | fgFrameStart (g : Fin 2) (sm : Tab (List Bool) 8) (o : List Part) (tn : List Nat) :
      EventEffect s (fgFrameStart g sm o tn s)
  | arbiterGrant : EventEffect s (arbiterGrant s)
  | loadComplete : EventEffect s (loadComplete s)
  | mapReadComplete : EventEffect s (mapReadComplete s)
  | mapWriteComplete : EventEffect s (mapWriteComplete s)
  | copyStepComplete : EventEffect s (copyStepComplete s)
  | stretchLimitExpiry : EventEffect s (stretchLimitExpiry s)

/-- What a command can do: an event has its effect, a host access is taken while RDY is active and held while it is not. -/
theorem exec_cases {c : Instr} {s t : State} (h : exec c s = .next t) :
    (c.isHostAccess = false ∧ EventEffect s t)
      ∨ (c.isHostAccess = true ∧ s.stretched = false ∧ t = takeHeld c s)
      ∨ (c.isHostAccess = true ∧ s.stretched = true
          ∧ t = s.withBus { s.bus with held := s.bus.held ++ [c] }) := by
  have access : ∀ (f : State → State), c.isHostAccess = true → f s = takeHeld c s → whenReady c f s = t →
      (c.isHostAccess = true ∧ s.stretched = false ∧ t = takeHeld c s)
      ∨ (c.isHostAccess = true ∧ s.stretched = true ∧ t = s.withBus { s.bus with held := s.bus.held ++ [c] }) := by
    intro f hc hf he
    unfold whenReady at he
    split at he
    · next hr => exact .inr ⟨hc, hr, he.symm⟩
    · next hr => exact .inl ⟨hc, Bool.eq_false_iff.mpr hr, by rw [← he, hf]⟩
  cases c
  case deviceReset => exact .inl ⟨rfl, by cases h; exact .deviceReset⟩
  case syncArrival p sm o => exact .inl ⟨rfl, by cases h; exact .syncArrival p sm o.txFirst o.turns⟩
  case timerExpiry p e => exact .inl ⟨rfl, by cases h; exact .timerExpiry p e.samples e.order.txFirst e.order.turns⟩
  case fgFrameStart g sm o => exact .inl ⟨rfl, by cases h; exact .fgFrameStart g sm o.sides o.turns⟩
  case arbiterGrant => exact .inl ⟨rfl, by cases h; exact .arbiterGrant⟩
  case loadComplete => exact .inl ⟨rfl, by cases h; exact .loadComplete⟩
  case mapReadComplete => exact .inl ⟨rfl, by cases h; exact .mapReadComplete⟩
  case mapWriteComplete => exact .inl ⟨rfl, by cases h; exact .mapWriteComplete⟩
  case copyStepComplete => exact .inl ⟨rfl, by cases h; exact .copyStepComplete⟩
  case stretchLimitExpiry => exact .inl ⟨rfl, by cases h; exact .stretchLimitExpiry⟩
  case registerWriteIgnored a v =>
    simp only [exec, execRegisterWriteIgnored] at h
    split at h
    · exact .inr (access _ rfl rfl (Host.Outcome.next.inj h))
    · cases h
  all_goals exact .inr (access _ rfl rfl (Host.Outcome.next.inj h))

/-- A property that every host access keeps, and that the waiting accesses do not bear on, is kept when RDY returns. -/
theorem drainHeld_keeps {P : State → Prop} (hbus : ∀ s b, P s → P (s.withBus b))
    (htake : ∀ c s, s.stretched = false → P s → P (takeHeld c s)) (l : List Instr) :
    ∀ s, P s → P (drainHeld l s) := by
  induction l with
  | nil => intro s h; exact h
  | cons c cs ih =>
    intro s h
    unfold drainHeld
    split
    · exact hbus _ _ h
    · next hr => exact ih _ (htake _ _ (Bool.eq_false_iff.mpr hr) h)

/-- A property that every host access keeps, and that the waiting accesses do not bear on, is kept when RDY returns. -/
theorem returnReady_keeps {P : State → Prop} (hbus : ∀ s b, P s → P (s.withBus b))
    (htake : ∀ c s, s.stretched = false → P s → P (takeHeld c s)) (s : State) (h : P s) : P (returnReady s) :=
  drainHeld_keeps hbus htake _ _ (hbus _ _ h)

/-- The effects that an invariant of the device must be kept by: device reset, the bit clocks, the events, the ends of a host
operation and the host accesses. The inputs of the model, the waiting commands and bits, do not bear on it. -/
structure Kept (P : State → Prop) : Prop where
  bus : ∀ s b, P s → P (s.withBus b)
  pending : ∀ s q, P s → P (s.withPending q)
  incoming : ∀ s q, P s → P (s.withIncoming q)
  reset : P State.reset
  bit : ∀ n b s, P s → P (bitClock n b s)
  arrival : ∀ (p : PhysLine) sm tx tn s, P s → P (syncArrival p.line sm tx tn s)
  expiry : ∀ (p : PhysLine) sm tx tn s, P s → P (timerExpiry p.line sm tx tn s)
  frameStart : ∀ g sm o tn s, P s → P (fgFrameStart g sm o tn s)
  grant : ∀ s, P s → P (arbiterGrant s)
  load : ∀ s, P s → P (loadComplete s)
  copyStep : ∀ s, P s → P (copyStepComplete s)
  mapRead : ∀ e s, s.arb.grant = some (.hostRead e) → P s → P (finishMapRead e s)
  mapWrite : ∀ e s, s.arb.grant = some (.hostWrite e) → P s → P (finishMapWrite e s)
  timeOut : ∀ s, P s → P (timeOut s)
  access : ∀ c s, s.stretched = false → P s → P (takeHeld c s)

/-- An invariant kept by every effect is kept by every step, from every state that meets it. -/
theorem Kept.step {P : State → Prop} (k : Kept P) {s t : State} (hs : P s) (h : step s = .next t) : P t := by
  obtain ⟨-, rfl⟩ | ⟨c, rest, -, h⟩ := step_cases h
  · unfold tick; split
    · exact hs
    · exact k.bit _ _ _ (k.incoming _ _ hs)
  · have hs := k.pending s rest hs
    obtain ⟨-, e⟩ | ⟨-, hr, rfl⟩ | ⟨-, -, rfl⟩ := exec_cases h
    · cases e with
      | deviceReset => exact k.incoming _ _ (k.pending _ _ k.reset)
      | syncArrival p sm tx tn => exact k.arrival p sm tx tn _ hs
      | timerExpiry p sm tx tn => exact k.expiry p sm tx tn _ hs
      | fgFrameStart g sm o tn => exact k.frameStart g sm o tn _ hs
      | arbiterGrant => exact k.grant _ hs
      | loadComplete => exact k.load _ hs
      | copyStepComplete => exact k.copyStep _ hs
      | mapReadComplete =>
        unfold mapReadComplete; split
        · exact returnReady_keeps k.bus k.access _ (k.mapRead _ _ ‹_› hs)
        all_goals exact hs
      | mapWriteComplete =>
        unfold mapWriteComplete; split
        · exact returnReady_keeps k.bus k.access _ (k.mapWrite _ _ ‹_› hs)
        all_goals exact hs
      | stretchLimitExpiry =>
        unfold stretchLimitExpiry; split
        · exact returnReady_keeps k.bus k.access _ (k.timeOut _ hs)
        · exact hs
    · exact k.access _ _ hr hs
    · exact k.bus _ _ hs

end Sys2Proof.Machine
end

