-- ==== Sys2Proof/Tests/Slice0.lean ====
section
/-! SUPPORT. Tests: what the well-formedness checks refuse, which register each access names, one step of each command with
the values of the spec's worked examples, and for each statement a state that meets its hypotheses. -/

namespace Sys2Proof.Tests
open Sys2Proof.Machine

/-! ### Small states -/

/-- The state after a command that has one. -/
def after (c : Instr) (s : State) : State :=
  match exec c s with
  | .next t => t
  | .fault _ => s
  | .refused _ => s

/-- The state with one line changed. -/
def withLine (n : Line) (f : LineUnit → LineUnit) (s : State) : State := s.withLines (s.lines.put n (f (s.lines.get n)))

/-- The state with one store changed. -/
def withStore (n : Line) (f : Store → Store) (s : State) : State := s.withStores (s.stores.put n (f (s.stores.get n)))

/-- The state with one assembler changed. -/
def withTxa (n : Line) (f : Assembler → Assembler) (s : State) : State := s.withTxas (s.txas.put n (f (s.txas.get n)))

/-- The state with one generator changed. -/
def withGen (g : Fin 2) (f : Generator → Generator) (s : State) : State := s.withGens (s.gens.put g (f (s.gens.get g)))

/-- The state with one counter set. -/
def withCount (n : Line) (k : Fin 8) (w : Word) (s : State) : State :=
  s.withCounters (s.counters.put n ((s.counters.get n).put k w))

/-- The state with one cause set. -/
def withCauseSet (n : Line) (c : CauseSet) (s : State) : State := s.withCauses (s.causes.put n c)

/-- The state with a claim granted. -/
def granted (g : Grant) (s : State) : State := s.withArb { s.arb with grant := some g }

/-- The state with the cursor at a record. -/
def atRecord (table : BitVec 4) (index : BitVec 10) (s : State) : State :=
  s.withTp { s.tp with tableId := table, index := index }

/-- The state with the first data words given. -/
def withData (w0 w1 w2 : Word) (s : State) : State := s.withTp { s.tp with data := #v[w0, w1, w2, 0] }

/-- An external line of `k` slots in a receiver state. -/
def external (k : Nat) (r : Receiver) (verify early : Nat) (armed : Bool) (l : LineUnit) : LineUnit :=
  { l with config := { l.config with slotCount := k }, enabled := true, receiver := r, verifyCount := verify,
           earlyCount := early, timerArmed := armed }

/-- A line of `k` slots timed by a generator, in a receiver state. -/
def timed (g : Fin 2) (k divider : Nat) (r : Receiver) (l : LineUnit) : LineUnit :=
  { l with config := { l.config with slotCount := k, timing := .fg g, bitDivider := divider }, enabled := true, receiver := r }

/-- Line L3 of 01 section 1.8, with 8 slots, in a receiver state. -/
def l3 (r : Receiver) (verify early : Nat) (armed : Bool) : State :=
  withLine 3 (external 8 r verify early armed) State.reset

/-- The same line while buffer 0 of its store receives a frame. -/
def l3Filling (early : Nat) : State :=
  withStore 3 (fun st => st.modify 0 fun b => b.become .filling) (l3 .locked 0 early true)

/-- A line of 2 slots while buffer 0 of its store receives a frame. -/
def shortLineFilling (early : Nat) : State :=
  withStore 3 (fun st => st.modify 0 fun b => b.become .filling) (withLine 3 (external 2 .locked 0 early true) State.reset)

/-- Bits sampled as ones. -/
def ones (k : Nat) : List Bool := List.replicate k true

/-- No samples. -/
def noSamples : Tab (List Bool) 8 := Tab.all 8 []

/-- A READY buffer that nobody holds. -/
def ready (number : BitVec 32) (b : Buffer) : Buffer := { b with state := .ready, number := some number }

/-- A READY buffer that line `y` holds. -/
def readyFor (number : BitVec 32) (y : Line) (b : Buffer) : Buffer :=
  { b with state := .ready, number := some number, holders := LineSet.empty.insert y }

/-- The store of 03 section 3.6 at time 6, after its completion: frames 5, 6, 3, 4, held by L7, nobody, L2 and L5. -/
def fullStore (st : Store) : Store :=
  { (((st.modify 0 (readyFor 5 7)).modify 1 (ready 6)).modify 2 (readyFor 3 2)).modify 3 (readyFor 4 5) with
    frameCount := 6 }

/-- The store of 03 section 3.6 at time 4, after its completion: frames 1 and 2 unheld, 3 held by L2, and 4, the newest. -/
def reusableStore (st : Store) : Store :=
  { (((st.modify 0 (ready 1)).modify 1 (ready 2)).modify 2 (readyFor 3 2)).modify 3 (ready 4) with frameCount := 4 }

/-- A route entry. -/
def route (p : EntryPolicy) (x : Line) (slot : Fin 64) (v : Word) : MapEntry := ⟨.route, p, x, slot, v⟩

/-- A slip record. -/
def slipRecord (kind : EventKind) (y x : Line) (count detail : Word) : EventRecord := ⟨kind, y, x, count, detail, 0⟩

/-- The state with an event queue of given records. -/
def withRecords (l : List EventRecord) (s : State) : State := s.withEvq { s.evq with records := l }

/-- Records of an OVERRUN event. -/
def filler (k : Nat) : List EventRecord := List.replicate k ⟨.overrun, 1, 0, 1, 0, 0⟩

/-! ### Well-formedness: an ill-formed command for each check -/

theorem test_wf_order_names_a_side_twice :
    (Instr.fgFrameStart 0 noSamples ⟨[⟨0, .receive⟩, ⟨0, .transmit⟩, ⟨0, .receive⟩], []⟩).wellFormed = false := by decide

theorem test_wf_start_without_its_code : (Instr.fgStart 0x000A).wellFormed = false := by decide

theorem test_wf_stop_without_its_code : (Instr.fgStop 0x0005).wellFormed = false := by decide

theorem test_wf_write_that_is_not_ignored : (Instr.registerWriteIgnored 0x16 2).wellFormed = false := by decide

theorem test_ill_formed_ignored_write_is_refused :
    exec (.registerWriteIgnored 0x19 1) State.reset = .refused .writeNotIgnored := by rfl

/-! ### Which register an access names (Table 11-1) -/

theorem test_decode_commit : decodeWrite 0x01 0x0002 = [.commit] := by decide

theorem test_decode_line_enable_takes_both_bit_values :
    decodeWrite 0x03 0x0060 = [.lineEnable 0x0060, .lineDisable 0x0060] := by decide

theorem test_decode_fg_control_starts_and_stops :
    decodeWrite 0x0A 0x0009 = [.fgStart 0x0009, .fgStop 0x0009] := by decide

theorem test_decode_last_data_word : decodeWrite 0x15 0x1234 = [.tpDataWrite 3 0x1234] := by decide

theorem test_decode_tp_command_code_3_is_ignored : decodeWrite 0x16 3 = [.registerWriteIgnored 0x16 3] := by decide

theorem test_decode_pop_and_capture_pop :
    decodeWrite 0x1F 0 = [.evqPop 0] ∧ decodeWrite 0x24 0 = [.capturePop 0] := by decide

theorem test_decode_reads :
    decodeRead 0x05 = some .enableRefusedRead ∧ decodeRead 0x1B = some .evqHead0Read ∧ decodeRead 0x1C = none := by
  decide

/-! ### Resets (01 section 1.7, 06 section 6.7, Table 11-1) -/

/-- The device-reset records of 11 section 11.5. -/
theorem test_reset_config_words :
    ((State.reset.lines.get 0).config.word0, (State.reset.lines.get 8).config.word0, (State.reset.lines.get 8).config.word1)
      = (0x0020, 0x0110, 0x0001) := by decide

theorem test_device_reset_keeps_the_queue :
    (after .deviceReset ((withLine 3 (external 8 .locked 0 0 true) State.reset).withPending [.commit])).pending = [.commit] := by
  decide

/-- 06 section 6.7: a copy cut short by RESTART leaves the staged bank INCOMPLETE. -/
theorem test_restart_aborts_a_copy :
    (let t := after .exchangeRestart (State.reset.withBc { State.reset.bc with pair := .copying, copyIndex := 300 })
     (t.bc.pair, t.bc.stagedValid, t.bc.result)) = (.stable, false, .ok) := by decide

/-! ### Receiver synchronisation (01 section 1.8) -/

set_option maxRecDepth 4096 in
theorem test_early_arrival_in_verify_is_a_new_reference :
    ((after (.syncArrival 3 (ones 122) ⟨true, []⟩) (l3 .verify 2 0 true)).lines.get 3).verifyCount = 1 := by decide

set_option maxRecDepth 4096 in
theorem test_third_arrival_locks :
    (let t := after (.syncArrival 3 (ones 128) ⟨false, []⟩) (l3 .verify 2 0 true)
     ((t.lines.get 3).receiver, t.evq.records)) = (.locked, [⟨.sync, 3, 0, 1, 3, 0⟩]) := by decide

/-- The early arrival at 700, 66 bit clocks into its frame: slots 0 to 3 hold their words, slots 4 to 7 hold 0. -/
theorem test_short_frame_words : shortFrame 8 (ones 66) = [0xFFFF, 0xFFFF, 0xFFFF, 0xFFFF, 0, 0, 0, 0] := by decide

set_option maxRecDepth 4096 in
/-- Its counts, on a line of 2 slots whose frame is cut in slot 1. -/
theorem test_first_early_arrival_ends_a_short_frame :
    (let t := after (.syncArrival 3 (ones 18) ⟨true, []⟩) (shortLineFilling 0)
     let b := (t.stores.get 3).buffers.get 0
     (b.state, b.damaged, b.words.take 2, (t.lines.get 3).earlyCount, t.counter 3 SYNC_ERRORS))
      = (.ready, true, [0xFFFF, 0], 1, 1) := by decide

set_option maxRecDepth 4096 in
/-- A late arrival, 5 bit clocks past: a whole, undamaged frame and one sync error. -/
theorem test_late_arrival_ends_a_whole_frame :
    (let t := after (.syncArrival 3 (ones 37) ⟨false, []⟩) (shortLineFilling 1)
     (((t.stores.get 3).buffers.get 0).damaged, (t.lines.get 3).earlyCount, t.counter 3 SYNC_ERRORS,
       t.counter 3 DAMAGED_FRAMES)) = (false, 0, 1, 0) := by decide

set_option maxRecDepth 4096 in
/-- The second early arrival in a row: LOST, one more sync error, one sync loss, SYNC before FAULT. -/
theorem test_second_early_arrival_loses_sync :
    (let t := after (.syncArrival 3 (ones 50) ⟨true, []⟩) (withCount 3 SYNC_ERRORS 3 (l3Filling 1))
     ((t.lines.get 3).receiver, t.counter 3 SYNC_ERRORS, t.counter 3 SYNC_LOSSES, t.evq.records))
      = (.lost, 4, 1, [⟨.sync, 3, 0, 1, 4, 0⟩, ⟨.fault, 3, 0, 1, 1, 0⟩]) := by decide

theorem test_expiry_in_locked_abandons_the_frame :
    (let t := after (.timerExpiry 3 ⟨[], false, []⟩) (l3Filling 0)
     ((t.lines.get 3).receiver, ((t.stores.get 3).buffers.get 0).state, (t.stores.get 3).frameCount)) = (.lost, .free, 0) := by
  decide

theorem test_expiry_in_verify_hunts :
    ((after (.timerExpiry 3 ⟨[], true, []⟩) (l3 .verify 2 0 true)).lines.get 3).receiver = .hunt := by decide

/-! ### Bit clocks, abandoned frames and the order of records (R42, R47, R165) -/

/-- A line of 2 slots in whose frame 15 bits have been sampled, the next bit on its way. -/
def midSlot : State :=
  ((shortLineFilling 0).withReceived (State.reset.received.put 3 (ones 15))).withIncoming [(3, false)]

/-- The 16th bit clock completes slot 0 and writes its word, while the buffer is FILLING. -/
theorem test_bit_clock_writes_the_word :
    (let t := match step midSlot with
      | .next t => t
      | .fault _ => midSlot
      | .refused _ => midSlot
     (((t.stores.get 3).buffers.get 0).words.take 2, ((t.stores.get 3).buffers.get 0).state, t.incoming))
      = ([0xFFFE, 0], .filling, []) := by decide

/-- An abandoned frame leaves the words formed in it. -/
theorem test_abandoned_frame_leaves_its_words :
    (let t := after (.timerExpiry 3 ⟨[true], false, []⟩) midSlot
     (((t.stores.get 3).buffers.get 0).words.take 2, ((t.stores.get 3).buffers.get 0).state, t.received.get 3 |>.length))
      = ([0xFFFF, 0], .free, 16) := by decide

/-- The lock of a line whose store is full of held buffers: the queue takes SYNC and OVERRUN in either order. -/
theorem test_sync_and_overrun_in_either_order :
    (let s := withStore 3 (fun st => { (((st.modify 0 (readyFor 5 7)).modify 1 (readyFor 6 7)).modify 2
        (readyFor 3 2)).modify 3 (readyFor 4 5) with frameCount := 6 }) (withLine 3 (external 1 .verify 2 0 true) State.reset)
     (((after (.syncArrival 3 (ones 16) ⟨true, []⟩) s).evq.records.map EventRecord.kind),
       ((after (.syncArrival 3 (ones 16) ⟨true, [1]⟩) s).evq.records.map EventRecord.kind)))
      = ([.sync, .overrun], [.overrun, .sync]) := by decide

/-- A SYNC with detail LOST and the FAULT for LOST keep their order; a COMMIT_DONE may stand between them. -/
theorem test_turns_keep_a_chain :
    interleave [1, 0] (chains [⟨.commitDone, 0, 0, 1, 1, 0⟩, ⟨.sync, 3, 0, 1, 4, 0⟩, ⟨.fault, 3, 0, 1, 1, 0⟩])
      = [⟨.sync, 3, 0, 1, 4, 0⟩, ⟨.commitDone, 0, 0, 1, 1, 0⟩, ⟨.fault, 3, 0, 1, 1, 0⟩] := by decide

/-- The two records of one host-line boundary keep their order (R128); an OVERRUN and a CAPTURE_OVERFLOW do not. -/
theorem test_underrun_stands_before_overflow :
    (interleave [1, 0] (chains [⟨.insertUnderrun, 8, 0, 1, 0, 0⟩, ⟨.captureOverflow, 8, 0, 1, 0, 0⟩]),
      interleave [1, 0] (chains [⟨.overrun, 8, 0, 1, 0, 0⟩, ⟨.captureOverflow, 8, 0, 1, 0, 0⟩]))
      = ([⟨.insertUnderrun, 8, 0, 1, 0, 0⟩, ⟨.captureOverflow, 8, 0, 1, 0, 0⟩],
        [⟨.captureOverflow, 8, 0, 1, 0, 0⟩, ⟨.overrun, 8, 0, 1, 0, 0⟩]) := by decide

/-! ### Two lines on one generator (01 section 1.9) -/

/-- FG1 with period 1200 and phase 100; L5 needs 1024 REFCLK periods, L6 needs 1536. -/
def twoLines : State :=
  withGen 1 (fun g => { g with period := 1200, phase := 100 })
    (withLine 5 (fun l => { timed 1 16 4 .disabled l with enabled := false })
      (withLine 6 (fun l => { timed 1 24 4 .disabled l with enabled := false }) State.reset))

/-- The same with L5 enabled. -/
def oneFits : State := withLine 5 (timed 1 16 4 .hunt) twoLines

theorem test_enable_takes_the_line_that_fits :
    (let t := after (.lineEnable 0x0060) twoLines
     ((t.lines.get 5).receiver, (t.lines.get 6).enabled, lineSetWord t.enableRefused)) = (.hunt, false, 0x0040) := by decide

theorem test_enable_refused_read_clears :
    (let t := after .enableRefusedRead (twoLines.withEnableRefused (LineSet.empty.insert 6))
     (t.bus.readData, lineSetWord t.enableRefused)) = (0x0040, 0) := by decide

theorem test_period_1000_is_refused_and_1600_taken :
    (((after (.fgPeriodWrite 1 1000) oneFits).gens.get 1).refused, ((after (.fgPeriodWrite 1 1600) oneFits).gens.get 1).period)
      = (true, 1600) := by decide

theorem test_phase_of_a_running_generator_is_refused :
    (let t := after (.fgPhaseWrite 1 300) (withGen 1 (fun g => { g with running := true }) oneFits)
     ((t.gens.get 1).phase, (t.gens.get 1).refused)) = (100, true) := by decide

theorem test_start_fg1 : (((after (.fgStart 0x0004) oneFits).gens.get 1).running,
    ((after (.fgStart 0x0004) oneFits).gens.get 0).running) = (true, false) := by decide

theorem test_first_frame_start_locks :
    (let t := after (.fgFrameStart 1 noSamples ⟨[], []⟩) (withGen 1 (fun g => { g with running := true }) oneFits)
     ((t.lines.get 5).receiver, t.evq.records, t.arb.loadQueue)) = (.locked, [⟨.sync, 5, 0, 1, 3, 0⟩], [5]) := by decide

/-- L5 has 256 bit clocks of 4 REFCLK periods each in a frame, LFS5 active in the first. -/
theorem test_bit_clocks_of_a_frame :
    (let s := withLine 5 (timed 1 16 4 .locked) (withGen 1 (fun g => { g with running := true }) twoLines)
     ([0, 3, 4, 1023, 1024].map (s.bitClockAt 5), [0, 3, 4, 1024].map (s.lfs 5)))
      = ([some 0, some 0, some 1, some 255, none], [true, true, false, false]) := by decide

theorem test_stop_fg1_hunts_without_events :
    (let t := after (.fgStop 0x0008)
      (withLine 5 (timed 1 16 4 .locked) (withGen 1 (fun g => { g with running := true }) twoLines))
     ((t.lines.get 5).receiver, (t.gens.get 1).running, t.evq.records)) = (.hunt, false, []) := by decide

theorem test_disable_and_restart :
    (((after (.lineDisable 0) (l3Filling 1)).lines.get 3).receiver, ((after (.lineRestart 0x08) (l3Filling 1)).lines.get 3).receiver,
      ((after (.lineRestart 0x08) (l3Filling 1)).lines.get 3).enabled) = (.disabled, .hunt, true) := by decide

/-! ### The frame check (02 sections 2.7 and 2.8) -/

/-- Line L2 of 02 section 2.7, its program loaded, its source frame ready. -/
def l2Loading : State :=
  granted (.load 2 [route .hold 1 0 0x7777, route .hold 1 0 0, ⟨.constant, .hold, 0, 0, 0x0ABC⟩, .zero] true)
    (withLine 2 (fun l => { (timed 0 4 1 .locked l) with
        config := { (timed 0 4 1 .locked l).config with checkEnable := true }, txCounter := 5 })
      (withLine 1 (external 2 .locked 0 0 true)
        (withStore 1 (fun st => st.modify 0 fun b => b.take 9 false [0x1234, 0]) State.reset)))

theorem test_check_word_is_formed :
    (let t := after .loadComplete l2Loading
     ((t.txas.get 2).fixed, (t.lines.get 2).txCounter, (t.txas.get 2).lastWords.take 4))
      = (some [some 0x5CF0, some 0x1234, some 0x0ABC, none], 6, [0x5CF0, 0x1234, 0x0ABC, 0]) := by decide

theorem test_load_takes_the_newest_frame :
    (let t := after .loadComplete l2Loading
     ((t.readers.get 2).get 1, ((t.stores.get 1).buffers.get 0).holders.get 2)) = (⟨some 9, some 0⟩, true) := by decide

/-- A checked line of one data slot with reference 11. -/
def checked : LineUnit :=
  { LineUnit.reset 4 with config := { LineConfig.reset 4 with slotCount := 2, checkEnable := true }, rxRef := some 11 }

/-- F5 of 02 section 2.8: counter 13 against reference 11. -/
theorem test_gap_against_reference : judge checked [0xD001, 1] false = ⟨false, false, true, some 13⟩ := by decide

/-- F3 of 02 section 2.8 (a sum that disagrees) and F4 (a short frame, not checked). -/
theorem test_bad_sum_and_short_frame :
    judge checked [0xC002, 1] false = ⟨true, true, false, some 12⟩ ∧ judge checked [0xC001, 0] true = ⟨true, false, false, some 11⟩ := by
  decide

/-! ### Stores (03 section 3.6) -/

theorem test_acquisition_takes_the_oldest_unheld :
    (let t := acquire 1 (withStore 1 reusableStore State.reset)
     (((t.stores.get 1).buffers.get 0).state, t.counter 1 OVERRUNS)) = (.filling, 0) := by decide

theorem test_exhausted_store_discards :
    (let t := acquire 1 (withStore 1 fullStore State.reset)
     ((t.stores.get 1).discarding, t.counter 1 OVERRUNS, t.evq.records)) = (true, 1, [⟨.overrun, 1, 0, 1, 0, 6⟩]) := by decide

/-! ### Slips (04 sections 4.10 and 4.11) -/

theorem test_classification :
    classify (some 1) 3 = .dropped 1 ∧ classify (some 2) 2 = .repeated ∧ classify (some 1) 2 = .none := by decide

theorem test_second_drop_merges :
    (reportSlip 4 0 (.dropped 1) (withRecords [slipRecord .slipDrop 4 0 1 1] State.reset)).evq.records
      = [slipRecord .slipDrop 4 0 2 2] := by decide

/-! ### Transmit assembly (07 sections 7.6 and 7.7) -/

/-- The program of line L5. -/
def l5Program : List MapEntry :=
  [⟨.constant, .hold, 0, 0, 0x1111⟩, route .hold 2 3 0, route .fill 2 7 0x0FF0, route .hold 2 20 0]

/-- Frame 4 of 07 section 7.6: the source is contained. -/
theorem test_contained_source :
    fixSlots State.reset.stores ((Tab.all 9 none).put 2 (some .contained)) l5Program [0x1111, 0x0A03, 0x0B03, 0]
      = [some 0x1111, some 0, some 0x0FF0, some 0] := by decide

/-- Frame 2 of 07 section 7.6: the source frame is damaged. -/
theorem test_damaged_source :
    fixSlots State.reset.stores ((Tab.all 9 none).put 2 (some (.held 0 16 true))) l5Program [0x1111, 0x0A01, 0x0B01, 0]
      = [some 0x1111, some 0x0A01, some 0x0FF0, some 0] := by decide

/-- 07 section 7.7: a line whose suspension flag is set drives no slot until a boundary finds the condition ended. -/
theorem test_suspension_ends_at_a_boundary :
    (let s := withTxa 4 (fun a => { a with suspended := true, fixed := some [some 0xFFFF] })
      (withLine 4 (timed 0 8 1 .locked) State.reset)
     (s.drivenBit 4 0, ((transmitBoundary 4 s).txas.get 4).suspended)) = (none, false) := by decide

/-- A line that has lost sync while its driving is suspended: LTXEn inactive and LTXDn low (R123). -/
theorem test_suspended_line_that_does_not_run_is_low :
    (let s := withTxa 3 (fun a => { a with suspended := true }) (l3 .lost 0 0 false)
     (s.ltxe 3 0, s.ltxd 3 0)) = (false, false) := by rfl

/-- The suspension flag of a disabled line has no effect on its pins (R113). -/
theorem test_flag_of_a_disabled_line_has_no_effect :
    (let s := withTxa 3 (fun a => { a with suspended := true }) State.reset
     (s.ltxe 3 0, s.ltxd 3 0)) = (State.reset.ltxe 3 0, State.reset.ltxd 3 0) := by rfl

/-! ### Table memory and bank control (05 sections 5.6 and 5.7, 06 sections 6.6 and 6.7) -/

/-- Kind ROUTE, HOLD, source H slot 20 (1482h); kind CONSTANT with source line 11 (00B1h). -/
theorem test_refused_entries : MapEntry.decode? 0x1482 0 = none ∧ MapEntry.decode? 0x00B1 0x7FFF = none := by decide

/-- Kind ROUTE, FILL, source L5 slot 10, value 0 (0A56h). -/
theorem test_entry_words : MapEntry.decode? 0x0A56 0 = some (route .fill 5 10 0) := by decide

theorem test_load_is_granted_before_the_host :
    (after .arbiterGrant (State.reset.withArb ⟨[4], some .read, some 201, none⟩)).arb.hostClaim = some .read := by decide

theorem test_host_is_granted_before_the_copy :
    (after .arbiterGrant (State.reset.withArb ⟨[], some .read, some 201, none⟩)).arb
      = ⟨[], none, some 201, some (.hostRead .zero)⟩ := by decide

theorem test_copy_step_of_an_aborted_copy :
    (let t := after .copyStepComplete (granted (.copyStep 300 false) (State.reset.withBankA [(300, route .hold 1 2 3)]))
     (Bank.read t.bankB 300, t.arb.copyClaim, t.bc)) = (route .hold 1 2 3, none, State.reset.bc) := by decide

theorem test_last_copy_step :
    (let t := after .copyStepComplete (granted (.copyStep 527 true)
      (State.reset.withBc { State.reset.bc with pair := .copying, copyIndex := 527, stagedValid := false }))
     (t.bc.pair, t.bc.stagedValid, t.evq.records)) = (.stable, true, [⟨.copyDone, 0, 0, 1, 0, 0⟩]) := by decide

theorem test_commit_with_a_running_line :
    (let t := after .commit (l3 .locked 0 0 true)
     (t.bc.pair, t.bc.active, t.bc.current.get 3, t.bc.current.get 6)) = (.commitPending, .B, .A, .B) := by decide

theorem test_commit_with_no_running_line_is_complete :
    (let t := after .commit State.reset
     (t.bc.pair, t.evq.records, t.irq.commitDone)) = (.stable, [⟨.commitDone, 0, 0, 1, 1, 0⟩], true) := by decide

theorem test_copy_is_busy_while_a_commit_pends :
    (after .copy (State.reset.withBc { State.reset.bc with pair := .commitPending })).bc.result = .busy := by decide

theorem test_copy_claims_index_0 : (after .copy State.reset).arb.copyClaim = some 0 := by decide

/-! ### The host line (08 sections 8.6 and 8.7) -/

/-- The host line of 08 section 8.6, with 4 slots, running, and words composed. -/
def hostRunning (words : List Word) : State :=
  (withLine 8 (timed 0 4 1 .locked) State.reset).withHost { HostBlock.reset with compose := words }

theorem test_fifth_insert_word_sets_over :
    (let t := after (.insertDataWrite 5) (hostRunning [1, 2, 3, 4])
     (t.host.compose, t.host.overFlag)) = ([1, 2, 3, 4], true) := by decide

theorem test_submit_of_a_whole_frame :
    (after .submit (hostRunning [1, 2, 3, 4])).host.insertPending = some ⟨4, [1, 2, 3, 4]⟩ := by decide

theorem test_submit_of_a_short_frame :
    ((after .submit (hostRunning [1, 2])).host.shortFlag, (after .submit (hostRunning [1, 2])).host.compose) = (true, [1, 2]) := by
  decide

theorem test_discard_empties : (after .discard (hostRunning [1, 2])).host.compose = [] := by decide

/-- The queue of 08 section 8.7: the head frame holds 0101h, 0102h, an undriven slot and 0104h. -/
def capturing (count : Nat) (index : Nat) : State :=
  (hostRunning []).withHost { HostBlock.reset with
    captures := List.replicate count ⟨4, [0x0101, 0x0102, 0, 0x0104], [true, true, false, true]⟩, readIndex := index }

theorem test_full_capture_queue_drops :
    (let t := appendCapture ⟨4, [0, 0, 0, 0], [true, true, true, true]⟩ (capturing 8 0)
     (t.host.captures.length, t.counter 8 CAPTURE_OVERFLOWS, t.evq.records)) = (8, 1, [⟨.captureOverflow, 8, 0, 1, 0, 0⟩]) := by
  decide

theorem test_capture_read_stays_at_the_last_slot :
    (let t := after .captureDataRead (capturing 8 3)
     (t.bus.readData, t.host.readIndex)) = (0x0104, 3) := by decide

theorem test_capture_pop_returns_the_index_to_0 :
    (let t := after (.capturePop 0) (capturing 8 3)
     (t.host.captures.length, t.host.readIndex)) = (7, 0) := by decide

theorem test_first_underrun_is_reported :
    (let t := handOver ((hostRunning []).withHost { HostBlock.reset with underrunArmed := true })
     (t.counter 8 INSERT_UNDERRUNS, t.host.underrunArmed, t.evq.records)) = (1, false, [⟨.insertUnderrun, 8, 0, 1, 0, 0⟩]) := by
  decide

/-! ### Supervision (09 section 9.8) -/

/-- Group 1 of L2, L3 and L6 under a policy, with the causes of L2, L3 and L6. -/
def group1 (p : Policy) (c2 c3 c6 : CauseSet) : State :=
  let inGroup : LineUnit → LineUnit := fun l => { l with config := { l.config with group := 1 } }
  withCauseSet 2 c2 (withCauseSet 3 c3 (withCauseSet 6 c6
    ((withLine 2 inGroup (withLine 3 inGroup (withLine 6 inGroup State.reset))).withPolicies (State.reset.policies.put 1 p))))

theorem test_own_cause_gives_group_in_order :
    (addOwnCause 2 .lost (group1 .isolateGroup .empty .empty .empty)).evq.records
      = [⟨.fault, 2, 0, 1, 1, 0⟩, ⟨.fault, 3, 0, 1, 3, 0⟩, ⟨.fault, 6, 0, 1, 3, 0⟩] := by decide

theorem test_release_of_one_line_regains_group :
    (let t := after (.lineRelease 0x0004) (group1 .isolateGroup ⟨true, false, true⟩ ⟨false, true, true⟩ ⟨false, false, true⟩)
     (t.causes.get 2, t.evq.records)) = (⟨false, false, true⟩, [⟨.release, 2, 0, 1, 0, 0⟩, ⟨.fault, 2, 0, 1, 3, 0⟩]) := by decide

theorem test_group_release_clears_all :
    (let t := after (.groupRelease 0x0002) (group1 .isolateGroup ⟨false, false, true⟩ .empty ⟨false, false, true⟩)
     (t.causes.get 2, t.causes.get 6, t.evq.records)) = (.empty, .empty, [⟨.release, 2, 0, 1, 0, 0⟩, ⟨.release, 6, 0, 1, 0, 0⟩]) := by
  decide

theorem test_policy_write_propagates :
    (let t := after (.groupPolicyWrite 0x000C) (group1 .notify ⟨true, false, false⟩ .empty .empty)
     (t.causes.get 3, (t.txas.get 2).suspended, (t.causes.get 0).group, t.evq.records))
      = (⟨false, false, true⟩, true, false, [⟨.fault, 3, 0, 1, 3, 0⟩, ⟨.fault, 6, 0, 1, 3, 0⟩]) := by decide

/-! ### Event queue and interrupt (10 section 10.6) -/

theorem test_full_queue_loses_an_event :
    (let t := sendEvent .sync 2 4 (withRecords (filler 32) State.reset)
     (t.evq.records.length, t.evq.lost, t.irq.evqLoss)) = (32, 1, true) := by decide

theorem test_full_queue_merges_a_slip :
    (let t := sendSlip .slipDrop 4 0 2 (withRecords (slipRecord .slipDrop 4 0 2 3 :: filler 31) State.reset)
     (t.evq.records.head?, t.evq.lost)) = (some (slipRecord .slipDrop 4 0 3 5), 0) := by decide

theorem test_head_read_latches_the_record :
    (let t := after .evqHead0Read (withRecords [slipRecord .slipRepeat 3 0 2 0] State.reset)
     (t.bus.readData, t.evq.latch.get 1, t.evq.records.length)) = (0x0034, 2, 1) := by decide

theorem test_pop_and_count_write :
    ((after (.evqPop 7) (withRecords (filler 2) State.reset)).evq.records.length,
      (after (.evqCountWrite 7) (State.reset.withEvq { EventQueue.reset with lost := 3 })).evq.lost) = (1, 0) := by decide

theorem test_irq_status_write_clears_what_is_written_1 :
    (after (.irqStatusWrite 0x0100) (State.reset.withIrq ⟨true, true, true, true, 0⟩)).irq = ⟨false, true, true, true, 0⟩ := by
  decide

theorem test_irq_enable_keeps_eight_bits : (after (.irqEnableWrite 0xFFFF) State.reset).irq.enable = 0x0F0F := by decide

/-! ### The table port (11 sections 11.6 and 11.7) -/

/-- The sweep of 11 section 11.6 at an index of COUNTERS. -/
def sweep (index : BitVec 10) : State :=
  (atRecord 4 index (withCount 8 INSERT_UNDERRUNS 5 (withCount 8 CAPTURE_OVERFLOWS 2 State.reset))).withTp
    { TablePort.reset with tableId := 4, index := index, autoAdvance := true, clearOnRead := true }

theorem test_counter_read_clears_and_advances :
    (let t := after .tpRead (sweep 66)
     (t.tp.data.get 0, t.counter 8 INSERT_UNDERRUNS, t.tp.index, t.tp.wrapped)) = (5, 0, 67, false) := by decide

theorem test_sweep_wraps :
    (let t := after .tpRead (sweep 71)
     (t.tp.data.get 0, t.tp.index, t.tp.wrapped, t.tp.result)) = (2, 0, true, .ok) := by decide

theorem test_counters_are_read_only :
    (let t := after .tpWrite (sweep 1)
     (t.tp.result, t.tp.index)) = (.readOnly, 1) := by decide

theorem test_cursor_write_clears_words_beyond_the_record :
    (let t := after (.tpCursorWrite 0x2008) (State.reset.withTp { TablePort.reset with data := #v[1, 0, 0, 9], wrapped := true })
     (t.tp.tableId, t.tp.index, t.tp.data.get 0, t.tp.data.get 3, t.tp.wrapped)) = (2, 8, 1, 0, false) := by decide

theorem test_data_word_beyond_the_record_is_ignored :
    (after (.tpDataWrite 1 0x1234) (sweep 1)).tp.data.get 1 = 0 := by decide

theorem test_control_write_with_limit_0_keeps_the_limit :
    (let t := after (.tpControlWrite 0x0003) State.reset
     (t.tp.limit, t.tp.autoAdvance, t.tp.clearOnRead)) = (255, true, true) := by decide

/-- 11 section 11.7: a limit of 2 is 128 REFCLK periods. -/
def mapWrite : State :=
  withData 0x0A56 0 0 ((State.reset.withTp { TablePort.reset with tableId := 0, index := 300, autoAdvance := true, limit := 2 }))

theorem test_map_write_waits_for_its_grant :
    (let t := after .tpWrite mapWrite
     (t.arb.hostClaim, t.tp.timer, t.rdy)) = (some (.write (route .fill 5 10 0)), some 128, false) := by decide

theorem test_map_write_times_out :
    (let t := after .stretchLimitExpiry (mapWrite.withArb { mapWrite.arb with hostClaim := some (.write .zero) })
     (t.tp.result, t.tp.index, t.irq.tpTimeout, t.arb.hostClaim)) = (.timeout, 300, true, none) := by decide

theorem test_map_write_completes :
    (let t := after .mapWriteComplete (granted (.hostWrite (route .fill 5 10 0)) mapWrite)
     (t.tp.result, t.tp.index, Bank.read t.bankB 300, Bank.read t.bankA 300)) = (.ok, 301, route .fill 5 10 0, .zero) := by
  decide

theorem test_map_read_completes :
    (let t := after .mapReadComplete (granted (.hostRead (route .fill 5 10 7)) mapWrite)
     (t.tp.data.get 0, t.tp.data.get 1, t.arb.grant)) = (0x0A56, 7, none) := by decide

/-- 11 section 11.1: an access that waits is taken when RDY returns. -/
theorem test_waiting_access_is_taken :
    (let t := after .mapReadComplete ((granted (.hostRead .zero) State.reset).withBus ⟨0, [.irqEnableWrite 0x0101]⟩)
     (t.irq.enable, t.bus.held)) = (0x0101, []) := by decide

/-- A read of TP_STATUS during a map operation waits for its end (R176). -/
theorem test_read_waits_while_stretched :
    ((State.reset.withArb { Arbiter.reset with hostClaim := some .read }).busRead 0x17, State.reset.busRead 0x17)
      = (none, some 0) := by decide

theorem test_ignored_write_changes_nothing : after (.registerWriteIgnored 0x0F 0xFFFF) State.reset = State.reset := by decide

/-! ### Witnesses: a state and operands that meet the hypotheses of each statement

Each theorem names its statement. Where a statement has several clauses the witness has one part for each, at the edge of its
range. -/

theorem witness_StepRunsFrontCommand :
    State.reset.pending = [] ∧ State.reset.incoming = [] ∧ midSlot.pending = [] ∧ midSlot.incoming = [(3, false)] := by decide

/-- RDY is inactive. -/
def stretching : State := State.reset.withArb { Arbiter.reset with hostClaim := some .read }

theorem witness_HostAccessWaitsWhileStretched :
    Instr.commit.isHostAccess = true ∧ Instr.commit.wellFormed = true ∧ stretching.stretched = true
      ∧ State.reset.stretched = false := by decide

/-- Accesses wait at the end of a map READ, of a map WRITE and at a TIMEOUT; the second starts an operation again, so the
third waits on. -/
theorem witness_WaitingAccessIsTakenWhenReadyReturns :
    let held := [Instr.irqEnableWrite 0x0101, .tpRead, .commit]
    let read := (granted (.hostRead .zero) State.reset).withBus ⟨0, held⟩
    let write := (granted (.hostWrite .zero) State.reset).withBus ⟨0, held⟩
    let claim := stretching.withBus ⟨0, held⟩
    (∀ s ∈ [read, write, claim], ∀ c ∈ s.bus.held, c.isHostAccess = true ∧ c.wellFormed = true)
      ∧ read.arb.grant = some (.hostRead .zero) ∧ write.arb.grant = some (.hostWrite .zero)
      ∧ claim.arb.hostClaim = some .read ∧ (after .mapReadComplete read).bus.held = [.commit] := by decide

theorem witness_DecodeOfEncodeFindsTheCommand :
    (Instr.fgStop 0x000A).wellFormed = true ∧ encodeAccess (.fgStop 0x000A) = some (.write 0x0A 0x000A) := by decide

theorem witness_DecodedCommandsAreWellFormed : Instr.lineDisable 0x01FF ∈ decodeAccess (.write 0x03 0x01FF) := by decide

theorem witness_RecordsReadBackAreTakenUnchanged :
    (⟨64, .fg 1, 64, true, 3, 255, true⟩ : LineConfig).inRange 7 = true
      ∧ (⟨16, .fg 0, 64, false, 3, 255, true⟩ : LineConfig).inRange 8 = true
      ∧ (¬ ((route .fill 8 15 0).sourceLine = hostLine ∧ 16 ≤ (route .fill 8 15 0).sourceSlot.val))
      ∧ ¬ ((route .fill 7 63 0).sourceLine = hostLine ∧ 16 ≤ (route .fill 7 63 0).sourceSlot.val) := by decide

/-- Each refusal of an entry at its edge, and the entry next to it that is taken: kind code 3, source line 9, slot 64 and host
slot 16. -/
theorem test_entries_at_the_edge :
    ([0x3F73, 0x0092, 0x4072, 0x1082].map fun w0 => MapEntry.decode? w0 5) = [none, none, none, none]
      ∧ ([0x3F72, 0x0F82].map fun w0 => MapEntry.decode? w0 5) = [some (route .hold 7 63 5), some (route .hold 8 15 5)] := by
  decide

/-- Each refusal of a record at its edge: timing code 3, 1 and 65 slots, dividers 0 and 65, and on the host line 0 and 17
slots, EXTERNAL timing and check enable. -/
theorem test_records_at_the_edge :
    ([0x0320, 0x0001, 0x0041].map fun w0 => LineConfig.decode? 3 w0 1 0) = [none, none, none]
      ∧ ([0, 65].map fun w1 => LineConfig.decode? 3 0x0020 w1 0) = [none, none]
      ∧ ([0x0100, 0x0111, 0x0010, 0x1110].map fun w0 => LineConfig.decode? 8 w0 1 0) = [none, none, none, none]
      ∧ LineConfig.decode? 3 0x1240 0x1340 0x00FF = some ⟨64, .fg 1, 64, true, 3, 255, true⟩
      ∧ LineConfig.decode? 8 0x0101 1 0 = some ⟨1, .fg 0, 1, false, 0, 0, false⟩ := by decide

theorem witness_IgnoredWritesAndEmptyReads :
    ((0x25 : BitVec 6) ∈ ([0x00, 0x02, 0x05, 0x0E, 0x0F, 0x17, 0x1B, 0x1C, 0x1D, 0x1E, 0x22, 0x23, 0x25] : List (BitVec 6)))
      ∧ 0x26 ≤ (0x26 : BitVec 6).toNat ∧ (0x0004 : Word).field 0 4 ∉ [1, 2, 3] ∧ (0x0003 : Word).field 0 2 ∉ [1, 2]
      ∧ (0x24 : BitVec 6) ∈ ([0x01, 0x04, 0x0C, 0x0D, 0x0F, 0x16, 0x1F, 0x20, 0x24] : List (BitVec 6))
      ∧ State.reset.stretched = false := by decide

theorem witness_ReadsThatChangeState : (capturing 8 3).stretched = false := by decide

theorem witness_ExchangeRestartKeepsConfiguration :
    (State.reset.withBc { State.reset.bc with pair := .commitPending, adoptionSet := LineSet.empty.insert 3 }).stretched = false
      ∧ (granted (.load 3 [.zero] true) State.reset).stretched = false
      ∧ (granted (.copyStep 527 true) State.reset).stretched = false ∧ State.reset.arb.grant = none := by decide

/-- Each refusal of a period and of a phase at its edge, and a write that is taken at the edge. -/
theorem witness_GeneratorRegisterWrites :
    oneFits.stretched = false ∧ (63 : Word).toNat < 64 ∧ (100 : Word).toNat ≤ (oneFits.gens.get 1).phase.toNat
      ∧ (∃ n, (oneFits.lines.get n).enabled = true ∧ (oneFits.lines.get n).config.timing = .fg 1
        ∧ (1023 : Word).toNat < (oneFits.lines.get n).config.slotCount * 16 * (oneFits.lines.get n).config.bitDivider)
      ∧ (¬ ((oneFits.gens.get 1).running = true ∨ (1024 : Word).toNat < 64
        ∨ (1024 : Word).toNat ≤ (oneFits.gens.get 1).phase.toNat
        ∨ ∃ n, (oneFits.lines.get n).enabled = true ∧ (oneFits.lines.get n).config.timing = .fg 1
          ∧ (1024 : Word).toNat < (oneFits.lines.get n).config.slotCount * 16 * (oneFits.lines.get n).config.bitDivider))
      ∧ (oneFits.gens.get 1).period.toNat ≤ (1200 : Word).toNat
      ∧ fgCode 0x0004 1 = 1 ∧ (oneFits.gens.get 1).running = false := by decide

/-- Generator FG1 runs and times L5, which is LOCKED; L6 is disabled. -/
def fg1Running : State := withLine 5 (timed 1 16 4 .locked) (withGen 1 (fun g => { g with running := true }) twoLines)

/-- A commit pends, with L5 the only member of the adoption set and every other line on the active bank. -/
def adopting : State :=
  fg1Running.withBc { BankControl.reset with
    pair := .commitPending, active := .B, current := (Tab.all 9 BankName.B).put 5 .A, adoptionSet := LineSet.empty.insert 5 }

/-- At a boundary of L5 and at each of its stops the commit is complete, with its status and its event. -/
theorem test_last_adoption_completes_the_commit :
    ∀ c ∈ [Instr.fgFrameStart 1 noSamples ⟨[], []⟩, .fgStop 0x0008, .lineDisable 0, .lineRestart 0x0020],
      let t := after c adopting
      t.bc.pair = .stable ∧ t.irq.commitDone = true ∧ t.evq.records = [⟨.commitDone, 0, 0, 1, 1, 0⟩] := by decide

/-- L5 is the last member to leave at its frame start, at the stop of FG1, at a disable and at a restart, with room for the
event; with L6 in the adoption set too the commit goes on pending. -/
theorem witness_AdoptionBy :
    let s := withRecords (filler 30) adopting
    let both := adopting.withBc { adopting.bc with adoptionSet := adopting.bc.adoptionSet.insert 6 }
    (∀ n, s.bc.adoptionSet.get n = true → n = 5) ∧ s.bc.adoptionSet.get 5 = true ∧ s.evq.records.length + 1 < 32
      ∧ s.timedBy 1 5 = true ∧ (s.running 5 = true ∧ lineBit 0 5 = false ∧ lineBit 0x0020 5 = true)
      ∧ (fgCode 0x0008 1 = 2 ∧ (s.gens.get 1).running = true ∧ (s.lines.get 5).config.timing = .fg 1)
      ∧ both.bc.adoptionSet.get 6 = true ∧ both.timedBy 1 6 = false := by decide

theorem witness_GeneratorStopHaltsItsLines :
    fg1Running.stretched = false ∧ fg1Running.running 5 = true ∧ (∃ g, fgCode 0x0008 g = 2 ∧ (fg1Running.gens.get g).running = true
        ∧ (fg1Running.lines.get 5).enabled = true ∧ (fg1Running.lines.get 5).config.timing = .fg g)
      ∧ (¬ ∃ g, fgCode 0x0008 g = 2 ∧ (fg1Running.gens.get g).running = true
        ∧ (fg1Running.lines.get 6).enabled = true ∧ (fg1Running.lines.get 6).config.timing = .fg g)
      ∧ ∀ n, fg1Running.bc.adoptionSet.get n = false := by decide

/-- The same while buffer 0 of the store of L5 receives a frame. -/
def fg1Filling : State := withStore 5 (fun st => st.modify 0 fun b => b.become .filling) fg1Running

theorem newest_fg1Filling : (fg1Filling.stores.get 5).NextNumberIsNewest := by
  have h : ∀ j, ((fg1Filling.stores.get 5).buffers.get j).state ≠ .ready := by decide
  exact fun j g hj => absurd hj (h j)

/-- A line that runs and receives a frame into buffer 0, one in HUNT, whose SYNC event the queue takes although EVQ_LOSS was
set before, and the host line with a frame pending; a line that the generator does not time, and a stopped generator. -/
theorem witness_FrameStartIsABoundaryOfItsLines :
    let fits := withGen 1 (fun g => { g with running := true }) oneFits
    let hunts := fits.withIrq { fits.irq with evqLoss := true }
    let host := (withLine hostLine (timed 1 4 1 .locked) fg1Running).withHost
      { HostBlock.reset with insertPending := some ⟨4, [1, 2, 3, 4]⟩ }
    (fg1Filling.gens.get 1).running = true ∧ fg1Filling.timedBy 1 5 = true ∧ fg1Filling.running 5 = true
      ∧ (fg1Filling.stores.get 5).filling = some 0 ∧ (fg1Filling.stores.get 5).NextNumberIsNewest
      ∧ ((hunts.gens.get 1).running = true ∧ hunts.timedBy 1 5 = true ∧ (hunts.lines.get 5).receiver = .hunt
        ∧ hunts.irq.evqLoss = true ∧ (after (.fgFrameStart 1 noSamples ⟨[], []⟩) hunts).evq.records.length < 32
        ∧ (after (.fgFrameStart 1 noSamples ⟨[], []⟩) fits).irq.evqLoss = false)
      ∧ ((host.gens.get 1).running = true ∧ host.timedBy 1 hostLine = true)
      ∧ fg1Running.timedBy 1 6 = false ∧ (fg1Running.gens.get 0).running = false :=
  ⟨by decide, by decide, by decide, by decide, newest_fg1Filling, by decide, by decide, by decide, by decide⟩

/-- FG1 times the host line, which has a fixed frame and as many captures as given, and its span has seen suspension or not. -/
def fg1Host (captures : Nat) (suspended span : Bool) : State :=
  withTxa hostLine (fun a => { a with fixed := some [some 1, none], suspended := suspended, spanSuspended := span })
    ((withLine hostLine (timed 1 4 1 .locked) fg1Running).withHost
      { HostBlock.reset with captures := List.replicate captures ⟨1, [7], [true]⟩ })

/-- 07 R127 at a frame start: the span that has seen suspension is captured blank, and the flags are clear after the boundary,
for the line is not FAULTED; the span that has not is captured as fixed. -/
theorem test_spans_at_a_frame_start :
    (let t := after (.fgFrameStart 1 noSamples ⟨[], []⟩) (fg1Host 0 true true)
     (t.host.captures, (t.txas.get hostLine).suspended, (t.txas.get hostLine).spanSuspended))
        = ([⟨2, [0, 0], [false, false]⟩], false, false)
      ∧ (after (.fgFrameStart 1 noSamples ⟨[], []⟩) (fg1Host 0 false false)).host.captures = [⟨2, [1, 0], [true, false]⟩] := by
  decide

/-- A host line with a fixed frame that finds room and one that finds none, its span with suspension; one with no fixed frame,
and one that the generator does not time. -/
theorem witness_host_line_at_a_frame_start :
    let bare := withLine hostLine (timed 1 4 1 .locked) fg1Running
    (∀ k ∈ [7, 8], (fg1Host k true true).timedBy 1 hostLine = true
        ∧ ((fg1Host k true true).txas.get hostLine).fixed = some [some 1, none]
        ∧ (fg1Host k true true).host.captures.length = k)
      ∧ ((fg1Host 7 true true).txas.get hostLine).spanSuspended = true
      ∧ (bare.timedBy 1 hostLine = true ∧ (bare.txas.get hostLine).fixed = none) ∧ fg1Running.timedBy 1 hostLine = false := by
  decide

/-- A boundary and each stop keep the last words of L5, but for a restart, which sets them to 0 (07 R121, R113); the last words
and the fixed frame of L6 are kept by all of them. -/
theorem test_last_words_stay :
    let words := fun n => withTxa n fun a => { a with lastWords := List.replicate 64 9, fixed := some [some 1] }
    let kept := fun c : Instr =>
      let t := after c (words 5 (words 6 fg1Running))
      [(t.txas.get 5).lastWords, (t.txas.get 6).lastWords].map (·.head?)
    let fixed := fun c : Instr =>
      let t := after c (words 5 (words 6 fg1Running))
      ((t.txas.get 5).fixed.isSome, (t.txas.get 6).fixed.isSome)
    (∀ c ∈ [Instr.fgFrameStart 1 noSamples ⟨[], []⟩, .fgStop 0x0008, .lineDisable 0],
        kept c = [some 9, some 9] ∧ fixed c = (false, true))
      ∧ kept (.lineRestart 0x0020) = [some 0, some 9] ∧ fixed (.lineRestart 0x0020) = (false, true) := by decide

/-- L5 with a FREE buffer, one that receives, one READY that L6 holds and one RETIRED that L5 alone holds; and with one READY
that nobody holds. -/
def fg1Storing : State :=
  withStore 5 (fun st => { (((st.modify 1 fun b => b.become .filling).modify 2 (readyFor 4 6)).modify 3
    fun b => { readyFor 3 5 b with state := .retired }) with frameCount := 4 }) fg1Running

/-- The stop of L5 leaves of its store the buffer that L6 holds, RETIRED, and the line frame count (03 R50, R51). -/
theorem test_store_of_a_stopped_line :
    (let t := after (.fgStop 0x0008) fg1Storing
     (([0, 1, 2, 3].map fun i => ((t.stores.get 5).buffers.get i).state), ((t.stores.get 5).buffers.get 2).number,
      ((t.stores.get 5).buffers.get 2).holders.get 6, (t.stores.get 5).frameCount))
      = ([.free, .free, .retired, .free], some 4, true, 4) := by decide

/-- A buffer of a line that stops in each of the cases, and one READY with no holder. -/
theorem witness_EmptiedBy :
    let b := fun i => (fg1Storing.stores.get 5).buffers.get i
    (b 0).state = .free ∧ (b 1).state = .filling ∧ ((b 2).state = .ready ∧ (b 2).holders.get 6 = true)
      ∧ ((b 3).state = .retired ∧ (b 3).holders.get 5 = true ∧ ∀ z, (b 3).holders.get z = true → z = 5)
      ∧ ((ready 4 (b 0)).state = .ready ∧ ∀ z, (ready 4 (b 0)).holders.get z = false) := by decide

/-- The load claims after a frame start and after a stop of FG1, of L5 first in the queue before L6 (05 R84, R85). -/
theorem test_load_claims_at_a_boundary_and_a_stop :
    let s := fg1Running.withArb { fg1Running.arb with loadQueue := [5, 6] }
    (after (.fgFrameStart 1 noSamples ⟨[], []⟩) s).arb.loadQueue = [6, 5]
      ∧ (after (.fgStop 0x0008) s).arb.loadQueue = [6]
      ∧ (after (.fgStop 0x0008) (granted (.load 5 [.zero] true) s)).arb.grant = some (.load 5 [.zero] false)
      ∧ (after (.fgStop 0x0008) (granted (.load 6 [.zero] true) s)).arb.grant = some (.load 6 [.zero] true) := by decide

/-- A granted load of the line that stops, one of another line, and no granted load; and an event lost before. -/
theorem witness_LoadsBy :
    let s := fg1Running.withIrq { fg1Running.irq with evqLoss := true }
    ((granted (.load 5 [.zero] true) s).arb.grant = some (.load 5 [.zero] true)
        ∧ (granted (.load 6 [.zero] true) s).arb.grant = some (.load 6 [.zero] true)
        ∧ (∀ y program live, s.arb.grant ≠ some (.load y program live)))
      ∧ (fgCode 0x0008 1 = 2 ∧ s.running 5 = true ∧ s.running 6 = false)
      ∧ s.irq.evqLoss = true ∧ (after (.fgStop 0x0008) s).evq.records.length < 32 :=
  ⟨⟨rfl, rfl, fun _ _ _ h => by cases h⟩, by decide, rfl, by decide⟩

/-- L5 holds buffer 0 of L1, buffer 0 of L2 and buffer 1 of L3; of these the first two are RETIRED, and L6 holds the second
too. -/
def fg1Holding : State :=
  let retired (ys : LineSet) : Buffer → Buffer := fun b =>
    { b with state := .retired, number := some 9, damaged := true, holders := ys }
  (withStore 1 (fun st => st.modify 0 (retired (LineSet.empty.insert 5)))
    (withStore 2 (fun st => st.modify 0 (retired ((LineSet.empty.insert 5).insert 6)))
      (withStore 3 (fun st => st.modify 1 (readyFor 4 5)) fg1Running))).withReaders
    (fg1Running.readers.put 5 ((((Tab.all 9 Reader.reset).put 1 ⟨some 9, some 0⟩).put 2 ⟨some 9, some 0⟩).put 3
      ⟨some 4, some 1⟩))

/-- The releases at a frame start: the RETIRED buffer of L1 is FREE, that of L2 stays with L6, and the cursor on L3 is kept. -/
theorem test_releases_at_a_frame_start :
    let t := after (.fgFrameStart 1 noSamples ⟨[], []⟩) fg1Holding
    (((t.stores.get 1).buffers.get 0).state, ((t.stores.get 2).buffers.get 0).state, ((t.stores.get 3).buffers.get 1).state)
        = (.free, .retired, .ready)
      ∧ ([1, 2, 3].map fun x => (t.readers.get 5).get x) = [⟨none, none⟩, ⟨none, none⟩, ⟨some 4, none⟩] := by decide

/-- L5 holds a buffer that is READY and ones that are RETIRED, alone and with L6; its own flag is set where no condition
holds, and where one does. -/
theorem witness_HoldsReleased :
    let s := fg1Holding
    (s.timedBy 1 5 = true ∧ s.timedBy 1 1 = false ∧ s.timedBy 1 6 = false)
      ∧ (((s.readers.get 5).get 3).held = some 1 ∧ ((s.stores.get 3).buffers.get 1).state ≠ .retired)
      ∧ (((s.readers.get 5).get 1).held = some 0 ∧ ((s.stores.get 1).buffers.get 0).state = .retired
        ∧ ((s.stores.get 1).buffers.get 0).holders.get 5 = true
        ∧ ∀ z, ((s.stores.get 1).buffers.get 0).holders.get z = true → s.timedBy 1 z = true)
      ∧ (((s.stores.get 2).buffers.get 0).state = .retired ∧ ((s.stores.get 2).buffers.get 0).holders.get 6 = true)
      ∧ ((s.readers.get 5).get 4).held = none := by decide

/-- L5 with its flag set, FAULTED under ISOLATE or not FAULTED; L6, which the generator does not time, with its flag and its
span flag set. -/
theorem witness_SuspensionTested :
    let flag := fun n => withTxa n fun a => { a with suspended := true, spanSuspended := true }
    let flagged := flag 6 (flag 5 fg1Running)
    let isolates := (withCauseSet 5 ⟨true, false, false⟩ flagged).withPolicies (State.reset.policies.put 0 .isolate)
    let suspended := fun s : State =>
      let t := after (.fgFrameStart 1 noSamples ⟨[], []⟩) s
      ((t.txas.get 5).suspended, (t.txas.get 6).suspended && (t.txas.get 6).spanSuspended)
    (isolates.isolating 5 = true ∧ (isolates.txas.get 5).suspended = true ∧ flagged.isolating 5 = false)
      ∧ flagged.timedBy 1 6 = false ∧ ((flagged.txas.get 6).suspended = true ∧ (flagged.txas.get 6).spanSuspended = true)
      ∧ (suspended flagged, suspended isolates) = ((false, true), (true, true)) := by decide

/-- L5 needs exactly the period of FG1, and L6 one REFCLK period more than that of FG0. -/
theorem witness_LineEnableTakesEachBit :
    let s := withGen 1 (fun g => { g with period := 1024 }) (withGen 0 (fun g => { g with period := 1535 })
      (withLine 6 (fun l => { l with config := { l.config with timing := .fg 0 } }) twoLines))
    s.stretched = false
      ∧ (lineBit 0x0060 5 = true ∧ (s.lines.get 5).enabled = false
        ∧ ∀ g, (s.lines.get 5).config.timing = .fg g →
          (s.lines.get 5).config.slotCount * 16 * (s.lines.get 5).config.bitDivider ≤ (s.gens.get g).period.toNat)
      ∧ (lineBit 0x0060 6 = true ∧ (s.lines.get 6).enabled = false ∧ (s.lines.get 6).config.timing = .fg 0
        ∧ (s.gens.get 0).period.toNat + 1 = (s.lines.get 6).config.slotCount * 16 * (s.lines.get 6).config.bitDivider)
      ∧ lineBit 0x0060 7 = false := by decide

theorem witness_LineDisableStopsItsLines :
    fg1Running.stretched = false ∧ (lineBit 0 5 = false ∧ (fg1Running.lines.get 5).enabled = true)
      ∧ (fg1Running.lines.get 6).enabled = false ∧ (lineBit 0 5 = false ∧ fg1Running.running 5 = true)
      ∧ ∀ n, fg1Running.bc.adoptionSet.get n = false := by decide

theorem witness_LineRestartRehuntsItsLines :
    fg1Running.stretched = false ∧ (lineBit 0x0020 5 = true ∧ (fg1Running.lines.get 5).enabled = true)
      ∧ lineBit 0x0020 6 = false ∧ (lineBit 0x0020 5 = true ∧ fg1Running.running 5 = true)
      ∧ ∀ n, fg1Running.bc.adoptionSet.get n = false := by decide

theorem witness_ArrivalInHuntGoesToVerify :
    ((l3 .hunt 0 0 false).lines.get 3).receiver = .hunt ∧ ((l3 .hunt 0 0 false).lines.get 3).config.timing = .external := by
  decide

set_option maxRecDepth 4096 in
/-- On time with verify counts 1 and 2, the one with a bit taken already; early by one bit clock, late by one; and arrivals
in LOST with and without auto-rehunt. The queue of the line that locks holds 29 records and its store has a FREE buffer. -/
theorem witness_ArrivalsInVerifyAndLost :
    let s1 := (l3 .verify 1 0 true).withReceived (State.reset.received.put 3 [true])
    let s2 := withRecords (filler 29) (l3 .verify 2 0 true)
    let off := l3 .lost 0 0 false
    let on := withLine 3 (fun l => { l with config := { l.config with autoRehunt := true } }) off
    (∀ s ∈ [s1, s2, off, on], (s.lines.get 3).config.timing = .external)
      ∧ ((s1.lines.get 3).receiver = .verify ∧ (s1.lines.get 3).timerArmed = true
        ∧ (s1.received.get 3).length + (ones 127).length = (s1.lines.get 3).config.slotCount * 16
        ∧ (s1.lines.get 3).verifyCount ≠ 2)
      ∧ ((s2.lines.get 3).receiver = .verify ∧ (s2.lines.get 3).timerArmed = true ∧ (s2.lines.get 3).verifyCount = 2
        ∧ (s2.received.get 3).length + (ones 128).length = (s2.lines.get 3).config.slotCount * 16
        ∧ (s2.stores.get 3).receiving = false ∧ s2.evq.records.length ≤ 29 ∧ (s2.stores.get 3).choose ≠ none
        ∧ ((s2.stores.get 3).release 3).choose ≠ none ∧ s2.bc.adoptionSet.get 3 = false)
      ∧ (127 ≠ (s2.lines.get 3).config.slotCount * 16 ∧ 129 ≠ (s2.lines.get 3).config.slotCount * 16)
      ∧ ((on.lines.get 3).receiver = .lost ∧ (on.lines.get 3).timerArmed = false
        ∧ (on.lines.get 3).config.autoRehunt = true)
      ∧ ((off.lines.get 3).receiver = .lost ∧ (off.lines.get 3).timerArmed = false
        ∧ (off.lines.get 3).config.autoRehunt = false) := by decide

theorem newest_l3Filling : ((l3Filling 0).stores.get 3).NextNumberIsNewest := by
  have h : ∀ j, (((l3Filling 0).stores.get 3).buffers.get j).state ≠ .ready := by decide
  exact fun j g hj => absurd hj (h j)

set_option maxRecDepth 4096 in
/-- The last late arrival, and the last early one, which must be the first in a row; a buffer receives the frame. -/
theorem witness_ArrivalsInLockedAreBoundaries :
    let s := (l3Filling 0).withReceived (State.reset.received.put 3 [true])
    (s.lines.get 3).config.timing = .external ∧ (s.lines.get 3).receiver = .locked ∧ (s.lines.get 3).timerArmed = true
      ∧ ((s.received.get 3 ++ ones 142).length = 143
        ∧ 143 < (s.lines.get 3).config.slotCount * 16 + 16 ∧ (s.lines.get 3).config.slotCount * 16 ≤ 143)
      ∧ ((s.received.get 3 ++ ones 126).length = 127
        ∧ 127 < (s.lines.get 3).config.slotCount * 16 ∧ (s.lines.get 3).earlyCount = 0)
      ∧ (s.stores.get 3).filling = some 0 ∧ (s.stores.get 3).NextNumberIsNewest :=
  ⟨by decide, by decide, by decide, by decide, by decide, by decide, newest_l3Filling⟩

set_option maxRecDepth 4096 in
/-- The same line, suspended, as the only member of the adoption set, at an arrival on time: the commit is complete, the load
claim waits, and the flag is clear, for the line is not FAULTED. -/
theorem test_arrival_adopts_and_ends_the_suspension :
    (let s := withTxa 3 (fun a => { a with suspended := true }) ((l3Filling 0).withBc { BankControl.reset with
        pair := .commitPending, current := (Tab.all 9 .A).put 3 .B, adoptionSet := LineSet.empty.insert 3 })
     let t := after (.syncArrival 3 (ones 128) ⟨true, []⟩) s
     (t.bc.pair, t.irq.commitDone, t.evq.records, t.arb.loadQueue, (t.txas.get 3).suspended))
      = (.stable, true, [⟨.commitDone, 0, 0, 1, 0, 0⟩], [3], false) := by decide

/-- A store with READY buffers that meets the law, its next number being 5. -/
theorem test_next_number_is_newest : (reusableStore (State.reset.stores.get 1)).NextNumberIsNewest := by
  have h : ∀ j, ((reusableStore (State.reset.stores.get 1)).buffers.get j).number.all (newer 5) = true := by decide
  intro j g _ hg
  have := h j
  rw [hg] at this
  exact this

/-- L3 as a member of a group under ISOLATE_GROUP, with L2 and L6. -/
def l3InGroup : State :=
  let inGroup : LineUnit → LineUnit := fun l => { l with config := { l.config with group := 1 } }
  (withLine 2 inGroup (withLine 6 inGroup (withLine 3 inGroup (l3Filling 1)))).withPolicies
    (State.reset.policies.put 1 .isolateGroup)

set_option maxRecDepth 4096 in
/-- A short frame at an arrival reaches the threshold of L3: it gains DEGRADED, the rest of its group GROUP (09 R149, R154). -/
theorem test_degraded_spreads_at_an_arrival :
    let s := (withLine 3 (fun l => { l with config := { l.config with damageThreshold := 7 }, earlyCount := 0 })
      l3InGroup).withWindows (State.reset.windows.put 3 ⟨254, 6, false⟩)
    let t := after (.syncArrival 3 (ones 127) ⟨true, []⟩) s
    (s.causes.get 3).degraded = false ∧ s.policyOf 3 = .isolateGroup ∧ s.groupOf 6 = s.groupOf 3
      ∧ [2, 3, 6, 1].map (fun n => ((t.causes.get n).degraded, (t.causes.get n).group))
        = [(false, true), (true, false), (false, true), (false, false)] := by decide

set_option maxRecDepth 4096 in
theorem witness_LossOfSync :
    ((l3 .verify 2 0 true).lines.get 3).config.timing = .external ∧ ((l3 .verify 2 0 true).lines.get 3).timerArmed = true
      ∧ ((l3 .verify 2 0 true).lines.get 3).receiver = .verify
      ∧ (∀ s ∈ [l3Filling 1, l3InGroup], (s.lines.get 3).config.timing = .external ∧ (s.lines.get 3).timerArmed = true
        ∧ (s.lines.get 3).receiver = .locked ∧ (withRecords (filler 22) s).evq.records.length ≤ 22
        ∧ s.bc.adoptionSet.get 3 = false ∧ (s.causes.get 3).lost = false
        ∧ (s.received.get 3).length + (ones 127).length < (s.lines.get 3).config.slotCount * 16
        ∧ (s.lines.get 3).earlyCount ≠ 0)
      ∧ ((l3Filling 1).policyOf 3 = .notify ∧ l3InGroup.policyOf 3 = .isolateGroup ∧ l3InGroup.otherMember 3 6 = true)
      ∧ (l3InGroup.received.get 3).length + (ones 144).length = (l3InGroup.lines.get 3).config.slotCount * 16 + 16
      ∧ ((l3 .hunt 0 0 false).lines.get 3).timerArmed = false := by decide

set_option maxRecDepth 4096 in
/-- An arrival on the 16th bit clock after the expected position: the line has lost sync, and the arrival is the first after
the expiry, which auto-rehunt takes. -/
theorem test_arrival_on_the_expiry :
    let run := fun rehunt : Bool =>
      let t := after (.syncArrival 3 (ones 48) ⟨true, []⟩)
        (withLine 3 (fun l => { l with config := { l.config with autoRehunt := rehunt } }) (shortLineFilling 1))
      ((t.lines.get 3).receiver, (t.lines.get 3).verifyCount, t.counter 3 SYNC_ERRORS, t.counter 3 SYNC_LOSSES, t.evq.records)
    let sent : List EventRecord := [⟨.sync, 3, 0, 1, 4, 0⟩, ⟨.fault, 3, 0, 1, 1, 0⟩]
    run false = (.lost, 0, 1, 1, sent) ∧ run true = (.verify, 1, 1, 1, sent) := by decide

/-- A frame that a buffer receives, with a window at its last frame but one and one damaged frame short of the threshold. -/
theorem witness_CompletedFrameIsJudged :
    let s := ((withLine 3 (fun l => { l with config := { l.config with damageThreshold := 7 } }) (l3Filling 0)).withWindows
      (State.reset.windows.put 3 ⟨254, 6, false⟩))
    (s.stores.get 3).receiving = true ∧ (s.stores.get 3).filling = some 0
      ∧ (s.stores.get 3).NextNumberIsNewest ∧ (withRecords (filler 22) s).evq.records.length ≤ 22
      ∧ ((s.windows.get 3).advance true).reaches (s.lines.get 3).config.damageThreshold = true
      ∧ ((s.windows.get 3).advance false).reaches (s.lines.get 3).config.damageThreshold = false :=
  ⟨by decide, by decide, newest_l3Filling, by decide, by decide, by decide⟩

theorem witness_CheckWordIsAcceptedByAReceiver : checked.config.checkEnable = true := by decide

/-- The bit that completes slot 0, the one before it and the one that completes the last slot; and a buffer in each state. -/
theorem witness_CompletionAndEmptying :
    let filling := (l3Filling 0).stores.get 3
    let discard := { (State.reset.stores.get 3) with discarding := true }
    let full := fullStore (State.reset.stores.get 1)
    (midSlot.running 3 = true ∧ (midSlot.received.get 3 ++ [true]).length = 16 * (0 + 1) ∧ (midSlot.stores.get 3).filling = some 0
        ∧ (shortLineFilling 0).running 3 = true ∧ ((shortLineFilling 0).received.get 3 ++ [true]).length % 16 ≠ 0
        ∧ (ones 31 ++ [true]).length = 16 * (1 + 1) ∧ 1 < (midSlot.lines.get 3).config.slotCount
        ∧ 16 * (midSlot.lines.get 3).config.slotCount < (ones 32 ++ [true]).length)
      ∧ filling.filling = some 0 ∧ (discard.filling = none ∧ discard.discarding = true)
      ∧ ((State.reset.stores.get 3).filling = none ∧ (State.reset.stores.get 3).discarding = false)
      ∧ (filling.buffers.get 1).state = .free ∧ (filling.buffers.get 0).state = .filling
      ∧ ((full.buffers.get 1).state = .ready ∧ ∀ y, (full.buffers.get 1).holders.get y = false)
      ∧ ((full.buffers.get 2).state = .ready ∧ (full.buffers.get 2).holders.get 2 = true)
      ∧ (full.emptied.buffers.get 2).state = .retired := by decide

theorem witness_AcquisitionProtectsHeldAndNewest :
    let reuse := withStore 1 reusableStore State.reset
    let full := withStore 1 fullStore State.reset
    (State.reset.stores.get 1).choose = some 0 ∧ (reuse.stores.get 1).choose = some 0
      ∧ ((reuse.stores.get 1).buffers.get 1).state = .ready ∧ ((reuse.stores.get 1).buffers.get 1).number = some 2
      ∧ (∀ y, ((reuse.stores.get 1).buffers.get 1).holders.get y = false) ∧ (reuse.stores.get 1).newest ≠ some (1, 2)
      ∧ (full.stores.get 1).choose = none ∧ (full.stores.get 1).overrunRun = false ∧ full.evq.records.length < 32
      ∧ (({ full.stores.get 1 with overrunRun := true } : Store).choose = none) := by decide

/-- The store that offers no buffer meets the law of the frame numbers. -/
theorem witness_AcquisitionProtectsHeldAndNewest_none : (fullStore (State.reset.stores.get 1)).NumbersCompare
    ∧ (fullStore (State.reset.stores.get 1)).choose = none := by
  refine ⟨⟨?_, ?_⟩, by decide⟩
  · have h : ∀ j, ((fullStore (State.reset.stores.get 1)).buffers.get j).number.all
        (fun g => decide (((fullStore (State.reset.stores.get 1)).frameCount - g).toNat < 2 ^ 31)) = true := by decide
    intro j g _ hg
    have := h j
    rw [hg] at this
    simpa using this
  · have h : ∀ i j, ((fullStore (State.reset.stores.get 1)).buffers.get i).number
        = ((fullStore (State.reset.stores.get 1)).buffers.get j).number → i = j := by decide
    intro i j g _ _ hi hj
    exact h i j (hi.trans hj.symm)

/-- A live load with a source to take (L1) and lines outside its source set, a load that has lost its use, and no load. -/
theorem witness_LoadCompletionSelectsAndFixes :
    (∃ p, l2Loading.arb.grant = some (.load 2 p true) ∧ inSourceSet (l2Loading.lines.get 2).config.checkEnable p 1 = true
        ∧ inSourceSet (l2Loading.lines.get 2).config.checkEnable p 0 = false)
      ∧ l2Loading.containedSource 1 = false ∧ l2Loading.running 1 = true ∧ (l2Loading.stores.get 1).newest = some (0, 9)
      ∧ (granted (.load 2 [] false) State.reset).arb.grant = some (.load 2 [] false)
      ∧ ∀ y p live, State.reset.arb.grant ≠ some (.load y p live) := by
  refine ⟨⟨_, rfl, by decide, by decide⟩, by decide, by decide, by decide, rfl, ?_⟩
  intro y p live h
  cases h

theorem witness_SlotIsFixedByItsEntry :
    MapEntry.zero.kind = .idle ∧ (⟨.constant, .hold, 0, 0, 1⟩ : MapEntry).kind = .constant ∧ (route .fill 2 15 0).kind = .route
      ∧ ((Tab.all 9 none).put 2 (some View.contained)).get (route .fill 2 15 0).sourceLine = some .contained
      ∧ ((Tab.all 9 none).put 2 (some View.absent)).get (route .fill 2 15 0).sourceLine = some .absent
      ∧ ((Tab.all 9 none).put 2 (some (View.held 0 16 false))).get (route .fill 2 15 0).sourceLine = some (.held 0 16 false)
      ∧ 16 ≤ (route .fill 2 16 0).sourceSlot.val ∧ (route .fill 2 15 0).sourceSlot.val < 16
      ∧ 3 < [(0 : Word), 0, 0, 0].length := by decide

theorem witness_SlotZeroEntryOfACheckedLineIsIgnored : (l2Loading.lines.get 2).config.checkEnable = true := by decide

/-- A suspended line that runs and one that does not; a running line with a driven and an undriven slot, and one with no fixed
frame; a line that does not run, and a disabled one that is suspended. L4 of 128 REFCLK periods a frame on FG0 while it runs
and while it is stopped, at the last period of the frame, the first of the gap and the next frame start. -/
theorem witness_SuspendedLineDrivesNothing :
    let run := withTxa 4 (fun a => { a with fixed := some [some 0x8001, none] }) (withLine 4 (timed 0 8 1 .locked) State.reset)
    let held := withTxa 4 (fun a => { a with suspended := true }) run
    let lost := withTxa 3 (fun a => { a with suspended := true }) (l3 .lost 0 0 false)
    ((held.txas.get 4).suspended = true ∧ held.running 4 = true)
      ∧ ((lost.txas.get 3).suspended = true ∧ lost.running 3 = false ∧ (lost.lines.get 3).enabled = true)
      ∧ (State.reset.lines.get 4).enabled = false ∧ (held.lines.get 4).enabled = true
      ∧ ((run.txas.get 4).suspended = false ∧ run.running 4 = true ∧ (run.txas.get 4).fixed = some [some 0x8001, none]
        ∧ ([some 0x8001, none] : List (Option Word)).getD 0 none = some 0x8001
        ∧ (([some 0x8001, none] : List (Option Word)).getD 1 none, ([some 0x8001, none] : List (Option Word)).getD 2 none)
            = (none, none))
      ∧ ((withLine 4 (timed 0 8 1 .locked) State.reset).txas.get 4).fixed = none ∧ State.reset.running 4 = false
      ∧ (let clocked := withGen 0 (fun g => { g with running := true }) run
         let c := (clocked.lines.get 4).config
         let gen := clocked.gens.get 0
         c.timing = .fg 0 ∧ (clocked.running 4 = true ∧ gen.running = true) ∧ (run.gens.get 0).running = false
          ∧ 127 < c.slotCount * 16 * c.bitDivider ∧ c.slotCount * 16 * c.bitDivider ≤ 128
          ∧ c.slotCount * 16 * c.bitDivider ≤ gen.period.toNat
          ∧ gen.frameStartTime (1 + 1) ≤ gen.frameStartTime 1 + 512) := by decide

theorem witness_ArbiterGrantsInOrder :
    (let s := State.reset.withArb ⟨[4], some .read, some 201, none⟩
     s.arb.grant = none ∧ s.arb.loadQueue = [4])
      ∧ (let s := State.reset.withArb ⟨[], some .read, some 201, none⟩
         s.arb.grant = none ∧ s.arb.loadQueue = [] ∧ s.arb.hostClaim = some .read)
      ∧ (let s := State.reset.withArb ⟨[], none, some 201, none⟩
         s.arb.grant = none ∧ s.arb.loadQueue = [] ∧ s.arb.hostClaim = none ∧ s.arb.copyClaim = some 201)
      ∧ (granted (.copyStep 200 true) State.reset).arb.grant ≠ none
      ∧ State.reset.arb.loadQueue = [] ∧ State.reset.arb.hostClaim = none ∧ State.reset.arb.copyClaim = none := by decide

/-- The last index but one, and the last, with and without AUTO_ADVANCE. -/
theorem witness_MapOperationsComplete :
    let read := granted (.hostRead .zero) mapWrite
    let write := granted (.hostWrite .zero) mapWrite
    let last := State.reset.withTp { TablePort.reset with autoAdvance := true, index := 527 }
    (read.arb.grant = some (.hostRead .zero) ∧ read.bus.held = [])
      ∧ (write.arb.grant = some (.hostWrite .zero) ∧ write.bus.held = [] ∧ Bank.wf write.bankA = true ∧ Bank.wf write.bankB = true)
      ∧ State.reset.tp.autoAdvance = false
      ∧ (last.tp.autoAdvance = true ∧ last.tp.tableId.toNat ≤ 1 ∧ last.tp.index.toNat = 527 ∧ (526 : BitVec 10).toNat < 527)
      ∧ State.reset.arb.grant = none := by decide

theorem witness_StretchLimitWithdrawsTheClaim :
    stretching.arb.hostClaim = some .read ∧ stretching.bus.held = [] ∧ stretching.arb.grant.any Grant.isHost = false
      ∧ State.reset.arb.hostClaim = none := by decide

theorem witness_CopyStepWritesOneEntry :
    let s (k : Nat) := granted (.copyStep k true) (State.reset.withBc { State.reset.bc with pair := .copying, copyIndex := k })
    ((granted (.copyStep 300 false) State.reset).arb.grant = some (.copyStep 300 false))
      ∧ ((s 526).arb.grant = some (.copyStep 526 true) ∧ (s 526).bc.copyIndex < 527)
      ∧ ((s 527).arb.grant = some (.copyStep 527 true) ∧ (s 527).bc.copyIndex = 527 ∧ (s 527).evq.records.length < 32)
      ∧ (Bank.wf State.reset.bankA = true ∧ Bank.wf State.reset.bankB = true) ∧ State.reset.arb.grant = none := by decide

theorem witness_CommitIsJudgedAgainstThePair :
    let pending := State.reset.withBc { State.reset.bc with pair := .commitPending }
    let copying := State.reset.withBc { State.reset.bc with pair := .copying }
    let incomplete := State.reset.withBc { State.reset.bc with stagedValid := false }
    (pending.stretched = false ∧ pending.bc.pair = .commitPending) ∧ (copying.stretched = false ∧ copying.bc.pair = .copying)
      ∧ (incomplete.stretched = false ∧ incomplete.bc.pair = .stable ∧ incomplete.bc.stagedValid = false)
      ∧ (fg1Running.stretched = false ∧ fg1Running.bc.pair = .stable ∧ fg1Running.bc.stagedValid = true
        ∧ fg1Running.running 5 = true ∧ fg1Running.running 6 = false)
      ∧ (State.reset.bc.pair = .stable ∧ State.reset.bc.stagedValid = true ∧ ∀ n, State.reset.running n = false) := by decide

theorem witness_CommitCompletesWhenNoLineRuns :
    (fg1Running.stretched = false ∧ fg1Running.bc.pair = .stable ∧ fg1Running.bc.stagedValid = true
        ∧ ∃ n, fg1Running.running n = true)
      ∧ (State.reset.stretched = false ∧ State.reset.bc.pair = .stable ∧ State.reset.bc.stagedValid = true
        ∧ (∀ n, State.reset.running n = false) ∧ State.reset.evq.records.length < 32) := by decide

theorem witness_CopyBeginsAtIndexZero :
    let copying := State.reset.withBc { State.reset.bc with pair := .copying, copyIndex := 300 }
    (copying.stretched = false ∧ copying.bc.pair ≠ .stable) ∧ State.reset.stretched = false ∧ State.reset.bc.pair = .stable := by
  decide

theorem witness_InsertDataIsComposed :
    ((hostRunning [1, 2, 3]).stretched = false
        ∧ (hostRunning [1, 2, 3]).host.compose.length < ((hostRunning [1, 2, 3]).lines.get hostLine).config.slotCount)
      ∧ ((hostRunning [1, 2, 3, 4]).lines.get hostLine).config.slotCount ≤ (hostRunning [1, 2, 3, 4]).host.compose.length := by
  decide

theorem witness_InsertAndCaptureCommands :
    let busy := (hostRunning []).withHost { HostBlock.reset with insertPending := some ⟨4, [1, 2, 3, 4]⟩ }
    (busy.stretched = false ∧ busy.host.insertPending ≠ none)
      ∧ ((hostRunning [1, 2, 3]).stretched = false ∧ (hostRunning [1, 2, 3]).host.insertPending = none
        ∧ (hostRunning [1, 2, 3]).host.compose.length < ((hostRunning [1, 2, 3]).lines.get hostLine).config.slotCount)
      ∧ (((hostRunning [1, 2, 3, 4]).lines.get hostLine).config.slotCount ≤ (hostRunning [1, 2, 3, 4]).host.compose.length)
      ∧ (hostRunning []).host.captures = [] ∧ (capturing 1 0).host.captures ≠ [] := by decide

/-- A pending frame that finds a buffer and one that finds none, an underrun while armed, and a fixed frame that finds room for
one more capture and one that finds the queue full. -/
theorem witness_HostBoundaryHandsOverAndCaptures :
    let busy := (hostRunning []).withHost { HostBlock.reset with insertPending := some ⟨4, [1, 2, 3, 4]⟩ }
    let full := withStore hostLine fullStore busy
    let armed := (hostRunning []).withHost { HostBlock.reset with underrunArmed := true }
    let fixed (k : Nat) := withTxa hostLine (fun a => { a with fixed := some [some 1, none] }) (capturing k 0)
    (busy.host.insertPending = some ⟨4, [1, 2, 3, 4]⟩ ∧ (busy.stores.get hostLine).choose = some 0)
      ∧ (full.host.insertPending = some ⟨4, [1, 2, 3, 4]⟩ ∧ (full.stores.get hostLine).choose = none)
      ∧ (armed.host.insertPending = none ∧ armed.host.underrunArmed = true ∧ armed.evq.records.length < 32)
      ∧ (armed.txas.get hostLine).fixed = none ∧ busy.host.underrunArmed = false
      ∧ (∀ s ∈ [busy, full, armed], (withRecords (filler 30) s).evq.records.length ≤ 30)
      ∧ (((fixed 7).txas.get hostLine).fixed = some [some 1, none] ∧ (fixed 7).host.captures.length < 8)
      ∧ (((fixed 8).txas.get hostLine).fixed = some [some 1, none] ∧ 8 ≤ (fixed 8).host.captures.length) := by decide

/-- A line of a group under ISOLATE that holds a cause and is suspended. -/
def isolated : State :=
  withTxa 2 (fun a => { a with suspended := true, spanSuspended := true }) (group1 .isolate ⟨true, false, false⟩ .empty .empty)

theorem isolated_law : SuspensionLaw isolated := by unfold SuspensionLaw; decide

theorem witness_GroupPolicyTakesEffectAtOnce :
    isolated.stretched = false ∧ SuspensionLaw isolated ∧ isolated.isolating 2 = true
      ∧ (withRecords (filler 23) isolated).evq.records.length ≤ 23 := ⟨by decide, isolated_law, by decide, by decide⟩

/-- L2 gains GROUP again, L6 does not (with L3 released too, no own cause remains), and L0 is not faulted. -/
theorem witness_ReleaseEmptiesCauses :
    let s := group1 .isolateGroup ⟨true, false, true⟩ ⟨false, true, true⟩ ⟨false, false, true⟩
    s.stretched = false ∧ (lineBit 0x0004 2 = true ∧ s.faulted 2 = true)
      ∧ (s.policyOf 2 = .isolateGroup ∧ s.groupOf 3 = s.groupOf 2 ∧ lineBit 0x0004 3 = false ∧ (s.causes.get 3).own = true)
      ∧ lineBit 0x0004 6 = false ∧ s.faulted 0 = false ∧ (0x0002 : Word).bit (s.groupOf 6).val = true
      ∧ (withRecords (filler 14) s).evq.records.length ≤ 14 := by decide

theorem witness_EventsAreAppendedMergedOrLost :
    (withRecords (filler 31) State.reset).evq.records.length < 32 ∧ 32 ≤ (withRecords (filler 32) State.reset).evq.records.length
      ∧ (withRecords (filler 1 ++ slipRecord .slipDrop 4 0 2 3 :: filler 30) State.reset).evq.records
          = filler 1 ++ slipRecord .slipDrop 4 0 2 3 :: filler 30
      ∧ (slipRecord .slipDrop 4 0 2 3).kind = .slipDrop ∧ (slipRecord .slipDrop 4 0 2 3).lineA = 4
      ∧ (slipRecord .slipDrop 4 0 2 3).lineB = 0
      ∧ (∀ q ∈ filler 1 ++ filler 30, ¬ (q.kind = .slipDrop ∧ q.lineA = 4 ∧ q.lineB = 0))
      ∧ (∀ q ∈ (withRecords (slipRecord .slipRepeat 4 0 2 0 :: filler 31) State.reset).evq.records,
          ¬ (q.kind = .slipDrop ∧ q.lineA = 4 ∧ q.lineB = 0))
      ∧ [⟨.sync, 3, 0, 1, 4, 0⟩, ⟨.fault, 3, 0, 1, 1, 0⟩]
          ∈ chains [⟨.commitDone, 0, 0, 1, 1, 0⟩, ⟨.sync, 3, 0, 1, 4, 0⟩, ⟨.fault, 3, 0, 1, 1, 0⟩]
      ∧ ((slipRecord .fault 3 0 1 3).kind = .fault ∧ (slipRecord .fault 3 0 1 3).detail ≠ 2)
      ∧ ((slipRecord .insertUnderrun 8 0 1 0).kind = .insertUnderrun
        ∧ (slipRecord .captureOverflow 8 0 1 0).kind = .captureOverflow) := by decide

theorem witness_QueueAndInterruptWrites : (withRecords (filler 32) State.reset).stretched = false ∧ 15 < 16 := by decide

theorem witness_EventCountShowsAndClears :
    (withRecords (filler 32) State.reset).stretched = false ∧ (withRecords (filler 32) State.reset).evq.records.length = 32
      ∧ (0x0100 : Word).getLsbD 8 = true := by decide

/-- The registers of `oneFits` with the policy word 002Ch written: LINE_ENABLE, FG1_PERIOD, FG1_PHASE and GROUP_POLICY. -/
theorem test_words_read_back :
    (let s := after (.groupPolicyWrite 0x002C) oneFits
     [0x03, 0x08, 0x09, 0x0B].map (readRegister s)) = [0x0020, 1200, 100, 0x002C] := by decide

/-- A full compose buffer and a full capture queue, the read index at the last slot of the head frame. -/
theorem witness_InterruptStatusAndLine :
    (hostRunning (List.replicate 16 7)).host.compose.length ≤ 16
      ∧ ((capturing 8 3).host.captures.length ≤ 8 ∧ (capturing 8 3).host.readIndex ≤ 15
        ∧ ∀ c ∈ (capturing 8 3).host.captures, c.slotCount ≤ 16) := by decide

theorem witness_TablePortRegisterWrites :
    (sweep 1).stretched = false ∧ (0 : Fin 4).val < recordLength (sweep 1).tp.tableId
      ∧ recordLength (sweep 1).tp.tableId ≤ (1 : Fin 4).val := by decide

/-- Each clause at the edge of its range: table ids 4 and 5, indexes 527 and 528 of a map table, the last records of the line
tables and of COUNTERS. -/
theorem witness_TablePortRead :
    (sweep 71).stretched = false ∧ 5 ≤ (atRecord 5 0 State.reset).tp.tableId.toNat
      ∧ ((atRecord 4 72 State.reset).tp.tableId.toNat ≤ 4
        ∧ tableSize (atRecord 4 72 State.reset).tp.tableId ≤ (atRecord 4 72 State.reset).tp.index.toNat)
      ∧ ((atRecord 1 527 State.reset).tp.tableId.toNat ≤ 1 ∧ (atRecord 1 527 State.reset).tp.index.toNat < 528)
      ∧ ((atRecord 2 8 State.reset).tp.tableId = 2 ∧ (atRecord 2 8 State.reset).tp.index.toNat = (8 : Line).val)
      ∧ ((atRecord 3 8 State.reset).tp.tableId = 3 ∧ (atRecord 3 8 State.reset).tp.index.toNat = (8 : Line).val)
      ∧ ((atRecord 3 3 (l3 .verify 2 0 true)).tp.index.toNat = (3 : Line).val
        ∧ ((atRecord 3 3 (l3 .verify 2 0 true)).lines.get 3).verifyCount ≤ 2)
      ∧ ((sweep 71).tp.tableId = 4 ∧ (sweep 71).tp.index.toNat = (8 : Line).val * 8 + (7 : Fin 8).val) := by decide

/-- Each clause at the edge of its range; the record of L3 is written while L3 is enabled with the same and with another
slot count, and while it is disabled. -/
theorem witness_TablePortWrite :
    let staged := withData 0x0A56 0 0 (atRecord 0 527 State.reset)
    let enabled := withData 0x0120 1 7 (atRecord 2 3 (withLine 3 (timed 0 32 1 .hunt) State.reset))
    mapWrite.stretched = false ∧ 5 ≤ (atRecord 5 0 State.reset).tp.tableId.toNat
      ∧ ((atRecord 2 9 State.reset).tp.tableId.toNat ≤ 4
        ∧ tableSize (atRecord 2 9 State.reset).tp.tableId ≤ (atRecord 2 9 State.reset).tp.index.toNat)
      ∧ ((atRecord 1 527 State.reset).tp.tableId = 1
        ∧ (atRecord 1 527 State.reset).tp.index.toNat < tableSize (atRecord 1 527 State.reset).tp.tableId)
      ∧ (staged.tp.tableId = 0 ∧ staged.tp.index.toNat < 528
        ∧ MapEntry.decode? (staged.tp.data.get 0) (staged.tp.data.get 1) = some (route .fill 5 10 0)
        ∧ staged.bc.pair = .stable
        ∧ (staged.withBc { staged.bc with pair := .copying }).bc.pair ≠ .stable ∧ MapEntry.decode? 0x1482 0 = none)
      ∧ (enabled.tp.tableId = 2 ∧ enabled.tp.index.toNat = (3 : Line).val ∧ (enabled.lines.get 3).enabled = true
        ∧ LineConfig.decode? 3 0x0041 1 0 = none
        ∧ LineConfig.decode? 3 (enabled.tp.data.get 0) (enabled.tp.data.get 1) (enabled.tp.data.get 2)
            = some ⟨32, .fg 0, 1, false, 0, 7, false⟩
        ∧ (enabled.lines.get 3).config.timingDiffers ⟨32, .fg 0, 1, false, 0, 7, false⟩ = false
        ∧ LineConfig.decode? 3 0x011F 1 7 = some ⟨31, .fg 0, 1, false, 0, 7, false⟩
        ∧ (enabled.lines.get 3).config.timingDiffers ⟨31, .fg 0, 1, false, 0, 7, false⟩ = true)
      ∧ (State.reset.lines.get 8).enabled = false
      ∧ LineConfig.decode? 8 0x0104 1 0 = some ⟨4, .fg 0, 1, false, 0, 0, false⟩ := by decide

/-- The record of L3 names a new group while L3 holds an own cause, and while L2 of that group does. -/
theorem witness_TablePortWrite_newGroup :
    let moved (p : Policy) (c2 c3 : CauseSet) := withData 0x0120 0x0101 0 (atRecord 2 3 (withLine 3 (timed 0 32 1 .hunt)
      (withCauseSet 3 c3 (withCauseSet 2 c2
        ((withLine 2 (fun l => { l with config := { l.config with group := 1 } }) State.reset).withPolicies
          (State.reset.policies.put 1 p))))))
    let c : LineConfig := ⟨32, .fg 0, 1, false, 1, 0, false⟩
    ∀ s ∈ [moved .isolateGroup .empty ⟨true, false, false⟩, moved .isolateGroup ⟨false, true, false⟩ .empty,
        moved .isolate .empty ⟨true, false, false⟩],
      s.tp.tableId = 2 ∧ s.tp.index.toNat = (3 : Line).val
        ∧ LineConfig.decode? 3 (s.tp.data.get 0) (s.tp.data.get 1) (s.tp.data.get 2) = some c
        ∧ (s.lines.get 3).config.timingDiffers c = false ∧ c.group ≠ (s.lines.get 3).config.group
        ∧ (withRecords (filler 23) s).evq.records.length ≤ 23 := by decide

/-! ### Witnesses for the laws that a step keeps: a state that meets the law, and its step -/

/-- L3 in VERIFY with its timer armed, and a command waiting. -/
theorem witness_ReceiversStayConsistent :
    let s := (l3 .verify 2 0 true).withPending [.timerExpiry 3 ⟨[], true, []⟩]
    ReceiverLaw s ∧ ∃ t, step s = .next t := by
  refine ⟨?_, _, rfl⟩
  unfold ReceiverLaw LineUnit.law
  decide

theorem witness_ConfigurationStaysInRange :
    let s := fg1Running.withPending [.fgPeriodWrite 1 1600]
    ConfigLaw s ∧ ∃ t, step s = .next t := by
  refine ⟨?_, _, rfl⟩
  unfold ConfigLaw
  decide

/-- L2 holds frame 9 of L1, both lines running, and a boundary of L2 waits. -/
def holdingState : State :=
  ((withLine 1 (external 2 .locked 0 0 true) (withLine 2 (external 2 .locked 0 0 true)
    (withStore 1 (fun st => st.modify 0 (readyFor 9 2)) State.reset))).withReaders
    (State.reset.readers.put 2 ((Tab.all 9 Reader.reset).put 1 ⟨some 9, some 0⟩))).withPending
    [.syncArrival 2 (ones 32) ⟨true, []⟩]

theorem holdingState_noLoad : ∀ y, ¬ holdingState.loadOutstanding y := by
  rintro y (h | ⟨p, h⟩) <;> cases h

theorem witness_HoldersAndReadersStayInAgreement : HoldingLaw holdingState ∧ ∃ t, step holdingState = .next t := by
  refine ⟨⟨?_, ?_, ⟨?_, ?_, ?_⟩, ?_, ?_, ?_⟩, _, rfl⟩
  · unfold ReceiverLaw LineUnit.law; decide
  · intro x
    revert x
    unfold BufferLaw
    refine fun x => ⟨?_, ?_, ?_, ?_⟩
    · revert x
      have h : ∀ x i, (((holdingState.stores.get x).buffers.get i).state = .ready → ((holdingState.stores.get x).buffers.get i).number = some 9)
          ∧ ((holdingState.stores.get x).buffers.get i).state ≠ .retired
          ∧ (((holdingState.stores.get x).buffers.get i).state ≠ .ready → ((holdingState.stores.get x).buffers.get i).number = none
            ∧ ((holdingState.stores.get x).buffers.get i).damaged = false
            ∧ ∀ y, ((holdingState.stores.get x).buffers.get i).holders.get y = false) := by decide
      intro x i
      obtain ⟨h1, h2, h3⟩ := h x i
      refine ⟨fun hs => h3 (by rcases hs with e | e <;> rw [e] <;> decide), fun hs => ?_, fun hs => absurd hs h2⟩
      rcases hs with e | e
      · exact ⟨9, h1 e⟩
      · exact absurd e h2
    · revert x; decide
    · revert x; decide
    · revert x; decide
  · decide
  · intro y h; exact absurd h (holdingState_noLoad y)
  · intro y p h; cases h
  · decide
  · have h : ∀ y x, ((holdingState.readers.get y).get x).held = none
        ∨ (((holdingState.readers.get y).get x).held = some 0
          ∧ ((holdingState.stores.get x).buffers.get 0).number = ((holdingState.readers.get y).get x).cursor) := by decide
    intro y x i hi
    rcases h y x with e | ⟨e, e'⟩
    · rw [e] at hi; cases hi
    · rw [e] at hi; cases hi; exact e'
  · intro y h
    have h' : holdingState.running y = false := h.resolve_right (holdingState_noLoad y)
    have k : ∀ y, holdingState.running y = false → ∀ x, ((holdingState.readers.get y).get x).held = none := by decide
    exact k y h'

/-- A commit pends with L5 in the adoption set and L6 on the active bank. -/
def commitPends : State := adopting.withPending [.fgFrameStart 1 noSamples ⟨[], []⟩]

theorem witness_LinesReadTheBankOfThePairState : BankPairLaw commitPends ∧ ∃ t, step commitPends = .next t := by
  refine ⟨⟨⟨fun i h => ?_, fun i h => ?_⟩, by decide, ?_⟩, _, rfl⟩
  · cases h
  · cases h
  · refine ⟨⟨5, by decide⟩, ?_⟩
    decide

/-- A copy has written entries 0 and 1 and its step 2 is granted. -/
def copies : State :=
  (granted (.copyStep 2 true) ((((State.reset.withBc { BankControl.reset with pair := .copying, copyIndex := 2 }).withBankA
    [(1, route .fill 1 2 3), (2, route .hold 4 5 6)]).withBankB [(1, route .fill 1 2 3)]))).withPending [.copyStepComplete]

theorem witness_CopiedEntriesEqualTheActiveBank : (BankPairLaw copies ∧ CopyLaw copies) ∧ ∃ t, step copies = .next t := by
  refine ⟨⟨⟨⟨fun i h => ?_, fun i h => ?_⟩, by decide, ?_⟩, ⟨by decide, by decide⟩, ?_, ?_⟩, _, rfl⟩
  · cases h
  · cases h; decide
  · show ∀ n, copies.bc.current.get n = copies.bc.active ∧ copies.bc.adoptionSet.get n = false
    decide
  · rintro e (h | h) <;> cases h
  · intro _
    decide

theorem witness_IsolatedLinesStaySuspended :
    SuspensionLaw (isolated.withPending [.lineRelease 0x0004])
      ∧ ∃ t, step (isolated.withPending [.lineRelease 0x0004]) = .next t := ⟨isolated_law, _, rfl⟩

/-- A full queue with two slip records of different pairs. -/
def fullQueue : State :=
  (withRecords (slipRecord .slipDrop 4 0 2 3 :: slipRecord .slipDrop 3 0 1 1 :: filler 30) (l3 .locked 0 1 true)).withPending
    [.timerExpiry 3 ⟨[], true, []⟩]

theorem witness_EventQueueStaysBoundedAndMerged : EventQueueLaw fullQueue ∧ ∃ t, step fullQueue = .next t := by
  refine ⟨⟨by decide, ?_⟩, _, rfl⟩
  unfold EventRecord.sameSlip
  decide

theorem witness_HostBlockStaysWithinBounds :
    HostBlockLaw ((capturing 8 3).withPending [.capturePop 0]) ∧ ∃ t, step ((capturing 8 3).withPending [.capturePop 0]) = .next t := by
  refine ⟨⟨by decide, ?_, by decide, ?_⟩, _, rfl⟩
  · intro f h
    cases h
  · show (3 : Nat) ≤ 4 - 1
    decide

theorem witness_SupervisionOfHostLineAndWindows :
    let s := ((l3Filling 0).withWindows (State.reset.windows.put 3 ⟨255, 255, true⟩)).withPending [.syncArrival 3 (ones 18) ⟨true, []⟩]
    (HostSupervisionLaw s ∧ WindowLaw s) ∧ ∃ t, step s = .next t := by
  refine ⟨⟨by unfold HostSupervisionLaw; decide, by unfold WindowLaw; decide⟩, _, rfl⟩

/-- A map READ waits for its grant and an access waits for RDY. -/
theorem witness_OneTablePortOperationInFlight :
    let s := ((stretching.withTp { TablePort.reset with timer := some 16320 }).withBus ⟨0, [.commit]⟩).withPending [.arbiterGrant]
    (TablePortLaw s ∧ ReadyLaw s) ∧ ∃ t, step s = .next t := by
  refine ⟨⟨by unfold TablePortLaw; decide, by unfold ReadyLaw; decide⟩, _, rfl⟩

end Sys2Proof.Tests
end

section
/-! An arrival in HUNT (01 section 1.5, R13): the settling of obligation O18. -/

namespace Sys2Proof.Machine

/-! ### Frames in sequence -/

/-- A part that is the same in two steps running is the same at their end. -/
theorem Field.same_trans {f : Field} {s t u : State} (h : f.same s t) (k : f.same t u) : f.same s u := by
  cases f <;> exact Eq.trans k h

/-- Two steps change no more than what each of them may change. -/
theorem OnlyChanges.trans {fs gs : List Field} {s t u : State} (h : OnlyChanges fs s t) (k : OnlyChanges gs t u)
    (hsub : fs ⊆ gs) : OnlyChanges gs s u :=
  fun f hf => Field.same_trans (h f (fun hm => hf (hsub hm))) (k f hf)

/-! ### A line that does not run -/

/-- A line in HUNT is not running (R20). -/
theorem not_running_of_hunt {n : Line} {s : State} (h : (s.lines.get n).receiver = .hunt) : s.running n = false := by
  simp [State.running, LineUnit.running, h]

/-- A line that is not running drives no bit of a slot (R122). -/
theorem drivenBit_of_not_running {p : PhysLine} {s : State} (h : s.running p.line = false) (b : Nat) :
    s.drivenBit p b = none := by
  simp [State.drivenBit, h]

/-- A bit clock of a line that is not running stores nothing: it is the one-bit case of `bitClocks_stores`. -/
theorem bitClock_stores_of_not_running {n : Line} {s : State} (h : s.running n = false) (b : Bool) :
    (bitClock n b s).stores = s.stores := by
  obtain ⟨-, -, hstores⟩ := bitClocks_stores n [b] s
  exact hstores h

/-- The bit clocks of a line that is not running bear on the received bits alone. -/
theorem bitClocks_onlyChanges_of_not_running {n : Line} {s : State} (h : s.running n = false) (bits : List Bool) :
    OnlyChanges [.received] s (bitClocks n bits s) := by
  obtain ⟨-, -, hstores⟩ := bitClocks_stores n bits s
  intro f hf
  cases f
  case stores => exact hstores h
  case received => simp at hf
  all_goals simp [Field.same]

/-! ### The step to VERIFY -/

/-- The line unit of every line after line `n` goes to VERIFY. -/
theorem toVerify_lines (n m : Line) (s : State) :
    (toVerify n s).lines.get m
      = if m = n then { s.lines.get n with receiver := .verify, verifyCount := 1, timerArmed := true }
        else s.lines.get m :=
  Tab.get_put ..

/-- No bit of the frame that the arrival begins has been sampled; the other lines keep their bits. -/
theorem toVerify_received (n m : Line) (s : State) :
    (toVerify n s).received.get m = if m = n then [] else s.received.get m :=
  Tab.get_put ..

theorem toVerify_onlyChanges (n : Line) (s : State) : OnlyChanges [.lines, .received] s (toVerify n s) := by
  intro f hf
  cases f
  case lines => simp at hf
  case received => simp at hf
  all_goals simp [Field.same]

/-! ### An arrival in HUNT -/

/-- An arrival in HUNT is judged by no timer, whatever bits lie before it. -/
theorem judgeArrival_of_hunt {n : Line} {s : State} (h : (s.lines.get n).receiver = .hunt) (samples : List Bool)
    (txFirst : Bool) : judgeArrival n samples txFirst s = toVerify n s := by
  simp [judgeArrival, firstArrival, h]

section
variable {n : Line} {s : State} (h : (s.lines.get n).receiver = .hunt)
  (ht : (s.lines.get n).config.timing = .external) (samples : List Bool) (txFirst : Bool) (turns : List Nat)
include h ht

/-- An arrival in HUNT takes the bit clocks before it and then goes to VERIFY. It sends no event, so no order of records
bears on it. -/
theorem syncArrival_of_hunt :
    syncArrival n samples txFirst turns s = toVerify n (bitClocks n samples s) := by
  have judged : ∀ q, judgeArrival n (((bitClocks n samples s).withEvq q).received.get n) txFirst
      ((bitClocks n samples s).withEvq q) = toVerify n ((bitClocks n samples s).withEvq q) :=
    fun q => judgeArrival_of_hunt (by simpa using h) _ _
  rw [syncArrival, if_pos ht, inTurn_quiet _ _ _ (by rw [judged]; rfl), judged]
  rfl

/-- What an arrival in HUNT may change: the line unit and the received bits, no store and no event (R13). -/
theorem syncArrival_onlyChanges_of_hunt :
    OnlyChanges [.lines, .received] s (syncArrival n samples txFirst turns s) := by
  rw [syncArrival_of_hunt h ht]
  exact (bitClocks_onlyChanges_of_not_running (not_running_of_hunt h) samples).trans (toVerify_onlyChanges _ _) (by simp)

/-- The line units after an arrival in HUNT: that of the line is in VERIFY with its timer armed, the others are kept. -/
theorem syncArrival_lines_of_hunt (m : Line) :
    (syncArrival n samples txFirst turns s).lines.get m
      = if m = n then { s.lines.get n with receiver := .verify, verifyCount := 1, timerArmed := true }
        else s.lines.get m := by
  simp [syncArrival_of_hunt h ht, toVerify_lines]

/-- The received bits after an arrival in HUNT: those of the line are gone, the other lines keep theirs. -/
theorem syncArrival_received_of_hunt (m : Line) :
    (syncArrival n samples txFirst turns s).received.get m = if m = n then [] else s.received.get m := by
  obtain ⟨-, hother⟩ := bitClocks_received n samples s
  rw [syncArrival_of_hunt h ht, toVerify_received]
  by_cases hm : m = n
  · simp [hm]
  · simp [hm, hother m hm]

end

/-- Settles O18: a line in HUNT is not running, which leaves its store and its slots alone, and an arrival is its bit clocks
followed by the step to VERIFY. -/
theorem arrivalInHuntGoesToVerify : Obligations.ArrivalInHuntGoesToVerify := by
  intro p samples txFirst turns s h
  have hrun : s.running p.line = false := not_running_of_hunt h
  refine ⟨hrun, drivenBit_of_not_running hrun, bitClock_stores_of_not_running hrun, fun ht => ?_⟩
  have hlines := syncArrival_lines_of_hunt h ht samples txFirst turns
  have hreceived := syncArrival_received_of_hunt h ht samples txFirst turns
  exact ⟨syncArrival p.line samples txFirst turns s, rfl, syncArrival_onlyChanges_of_hunt h ht samples txFirst turns,
    fun m hm => by simp [hlines, hm], fun m hm => by simp [hreceived, hm], by simp [hreceived], by simp [hlines]⟩

end Sys2Proof.Machine
end

section
/-! A COMMIT judged against the pair (06 section 6.3.1, R98 and R99): the settling of obligation O35. -/

namespace Sys2Proof.Machine

/-! ### How a COMMIT is judged (R98) -/

/-- While RDY is active a COMMIT is taken as it is written (R97). -/
theorem exec_commit_of_ready {s : State} (h : s.stretched = false) : exec .commit s = .next (commit s) :=
  exec_hostAccess rfl (by simp) h

/-- Outside STABLE a COMMIT is refused, whatever the staged validity. -/
theorem commit_of_not_stable {s : State} (h : s.bc.pair ≠ .stable) :
    commit s = s.withBc { s.bc with result := .busy } := by
  simp [commit, h]

/-- A COMMIT of a staged bank that is not whole is refused. -/
theorem commit_of_incomplete {s : State} (hp : s.bc.pair = .stable) (hv : s.bc.stagedValid = false) :
    commit s = s.withBc { s.bc with result := .stagedIncomplete } := by
  simp [commit, hp, hv]

/-- A COMMIT of a whole staged bank in STABLE is accepted. -/
theorem commit_of_valid {s : State} (hp : s.bc.pair = .stable) (hv : s.bc.stagedValid = true) :
    commit s = acceptCommit s := by
  simp [commit, hp, hv]

/-! ### What an accepted COMMIT leaves in bank control (R99) -/

theorem runningSet_isEmpty_iff (s : State) : s.runningSet.isEmpty = true ↔ ∀ n, s.running n = false := by
  simp [isEmpty_iff, State.runningSet]

/-- Bank control after an accepted COMMIT: the completion of the commit, with no running line, bears on the pair state
alone. -/
theorem acceptCommit_bc (s : State) : (acceptCommit s).bc = { s.bc with
    pair := if s.runningSet.isEmpty then .stable else .commitPending
    active := s.bc.active.other, adoptionSet := s.runningSet, result := .ok
    current := Tab.of fun n => if s.running n then s.bc.current.get n else s.bc.active.other } := by
  unfold acceptCommit
  by_cases h : s.runningSet.isEmpty = true
  · simp only [h, if_true]
    rw [(completeCommit_spec _).1, State.withBc_bc]
  · simp [h]

/-- A line that is not running adopts the new active bank at once and is no member of the adoption set. -/
theorem acceptCommit_adopts {n : Line} {s : State} (h : s.running n = false) :
    (acceptCommit s).bc.current.get n = (acceptCommit s).bc.active
      ∧ (acceptCommit s).bc.adoptionSet.get n = false := by
  simp [acceptCommit_bc, State.runningSet, h]

/-- A running line stays on its bank and is a member of the adoption set. -/
theorem acceptCommit_awaits_boundary {n : Line} {s : State} (h : s.running n = true) :
    (acceptCommit s).bc.current.get n = s.bc.current.get n ∧ (acceptCommit s).bc.adoptionSet.get n = true := by
  simp [acceptCommit_bc, State.runningSet, h]

theorem acceptCommit_pair_of_running {s : State} (h : ∃ n, s.running n = true) :
    (acceptCommit s).bc.pair = .commitPending := by
  have hset : ¬ s.runningSet.isEmpty = true := by simpa [runningSet_isEmpty_iff] using h
  simp [acceptCommit_bc, hset]

theorem acceptCommit_pair_of_none_running {s : State} (h : ∀ n, s.running n = false) :
    (acceptCommit s).bc.pair = .stable := by
  simp [acceptCommit_bc, (runningSet_isEmpty_iff s).mpr h]

/-- Settles O35: a COMMIT in STABLE is refused or accepted by the staged validity, one outside STABLE is refused, and an
accepted one leaves the bank control of `acceptCommit_bc`. -/
theorem commitIsJudgedAgainstThePair : Obligations.CommitIsJudgedAgainstThePair := by
  intro s hready
  rw [exec_commit_of_ready hready]
  refine ⟨fun hbusy => ?busy, fun hp hv => ?incomplete, fun hp hv => ?accepted⟩
  case busy =>
    have hne : s.bc.pair ≠ .stable := by rcases hbusy with h | h <;> simp [h]
    rw [commit_of_not_stable hne]
  case incomplete => rw [commit_of_incomplete hp hv]
  case accepted =>
    have hbc := acceptCommit_bc s
    exact ⟨acceptCommit s, by rw [commit_of_valid hp hv], by rw [hbc], by rw [hbc], by rw [hbc]; exact hv,
      fun _ => acceptCommit_adopts, fun _ => acceptCommit_awaits_boundary,
      acceptCommit_pair_of_running, acceptCommit_pair_of_none_running⟩

end Sys2Proof.Machine
end

section
/-! A write to INSERT_DATA (08 section 8.2, R130): the settling of obligation O38. -/

namespace Sys2Proof.Machine

/-- While RDY is active a write to INSERT_DATA is taken as it is written (R176). -/
theorem exec_insertDataWrite_of_ready (v : Word) {s : State} (h : s.stretched = false) :
    exec (.insertDataWrite v) s = .next (insertDataWrite v s) :=
  exec_hostAccess rfl (by simp) h

/-- Below the slot count of the host line the word is appended. -/
theorem insertDataWrite_of_room (v : Word) {s : State} (h : s.host.compose.length < s.hostSlots) :
    insertDataWrite v s = s.withHost { s.host with compose := s.host.compose ++ [v] } :=
  if_pos h

/-- With as many words as slots, or more, the word is dropped and OVER is set. -/
theorem insertDataWrite_of_full (v : Word) {s : State} (h : s.hostSlots ≤ s.host.compose.length) :
    insertDataWrite v s = s.withHost { s.host with overFlag := true } :=
  if_neg (Nat.not_lt.mpr h)

/-- Settles O38: the word count is below the slot count or not, and INSERT_DATA is no readable register, so that a read of it
returns 0 and is no command. -/
theorem insertDataIsComposed : Obligations.InsertDataIsComposed := by
  intro v s hready
  rw [exec_insertDataWrite_of_ready v hready]
  refine ⟨⟨fun hroom => ?room, fun hfull => ?full⟩, rfl, rfl⟩
  case room => rw [insertDataWrite_of_room v hroom]
  case full => rw [insertDataWrite_of_full v hfull]

end Sys2Proof.Machine
end

section
/-! What EVQ_COUNT shows and clears (10 section 10.3, R171): the settling of obligation O45. -/

namespace Sys2Proof.Machine

/-! ### What EVQ_COUNT shows -/

/-- The low field is the number of records, as long as the list is within its capacity (R163). -/
theorem EventQueue.countWord_records {q : EventQueue} (h : q.records.length ≤ Config.eventCapacity) :
    q.countWord.field 0 6 = q.records.length := by
  have hcap : q.records.length ≤ 32 := h
  have hlost := q.lost.isLt
  rw [EventQueue.countWord, field_ofNat _ _ _ (by omega)]
  omega

/-- The high field is the lost count: the records do not reach it. -/
theorem EventQueue.countWord_lost {q : EventQueue} (h : q.records.length ≤ Config.eventCapacity) :
    q.countWord.field 8 8 = q.lost.toNat := by
  have hcap : q.records.length ≤ 32 := h
  have hlost := q.lost.isLt
  rw [EventQueue.countWord, field_ofNat _ _ _ (by omega)]
  omega

/-! ### The two writes -/

/-- While RDY is active a write to EVQ_COUNT is taken as it is written (R176). -/
theorem exec_evqCountWrite_of_ready (v : Word) {s : State} (h : s.stretched = false) :
    exec (.evqCountWrite v) s = .next (s.withEvq { s.evq with lost := 0 }) :=
  exec_hostAccess rfl (by simp) h

/-- While RDY is active a write to IRQ_STATUS is taken as it is written (R176). -/
theorem exec_irqStatusWrite_of_ready (v : Word) {s : State} (h : s.stretched = false) :
    exec (.irqStatusWrite v) s = .next (irqStatusWrite v s) :=
  exec_hostAccess rfl (by simp) h

/-- A write to IRQ_STATUS leaves the event queue. -/
@[simp] theorem irqStatusWrite_evq (v : Word) (s : State) : (irqStatusWrite v s).evq = s.evq := rfl

/-- EVQ_LOSS outlives a write to IRQ_STATUS exactly when its position is written 0 (R173). -/
@[simp] theorem irqStatusWrite_evqLoss (v : Word) (s : State) :
    (irqStatusWrite v s).irq.evqLoss = (s.irq.evqLoss && !v.getLsbD 8) := rfl

/-! ### A lost event (R167) -/

/-- An event that finds the list full is counted, up to 255, and sets EVQ_LOSS. -/
theorem appendRecord_of_full (r : EventRecord) {s : State} (h : Config.eventCapacity ≤ s.evq.records.length) :
    appendRecord r s = (s.withEvq { s.evq with
        lost := if s.evq.lost = 0xFF then s.evq.lost else s.evq.lost + 1 }).withIrq { s.irq with evqLoss := true } :=
  if_neg (Nat.not_lt.mpr h)

/-- An event does not move RDY. -/
@[simp] theorem appendRecord_stretched (r : EventRecord) (s : State) :
    (appendRecord r s).stretched = s.stretched := by
  simp [State.stretched]

/-- Settles O45: the two fields of the count word do not overlap, and of a write and a lost event the later one decides the
lost count, while EVQ_LOSS stays set in both orders. -/
theorem eventCountShowsAndClears : Obligations.EventCountShowsAndClears := by
  intro v s hready hcap
  refine ⟨EventQueue.countWord_records hcap, EventQueue.countWord_lost hcap, exec_evqCountWrite_of_ready v hready,
    fun w hw => ?clearsLoss, fun r hfull => ⟨?writeFirst, ?eventFirst⟩⟩
  case clearsLoss =>
    exact ⟨irqStatusWrite w s, exec_irqStatusWrite_of_ready w hready, by simp [hw], irqStatusWrite_evq w s⟩
  case writeFirst =>
    rw [appendRecord_of_full r (s := s.withEvq { s.evq with lost := 0 }) hfull.ge]
    exact ⟨rfl, rfl⟩
  case eventFirst =>
    refine ⟨_, exec_evqCountWrite_of_ready v (by simpa using hready), rfl, ?_⟩
    rw [appendRecord_of_full r hfull.ge]
    rfl

end Sys2Proof.Machine
end

section
set_option Elab.async false -- one proof after the other, within the check's limit on threads
/-! What each command may change: the frames of the host accesses and of the events as statements about parts of the state,
and how a law that rests on few parts is kept by a command that leaves them. -/

namespace Sys2Proof.Machine

/-! ### Frames -/

/-- Two states with a part that no command in between changes. -/
theorem OnlyChanges.same {fs : List Field} {s t : State} (h : OnlyChanges fs s t) (f : Field)
    (hf : f ∉ fs := by decide) : f.same s t := h f hf

theorem OnlyChanges.refl (fs : List Field) (s : State) : OnlyChanges fs s s := by
  intro f _; cases f <;> rfl

theorem OnlyChanges.mono {fs gs : List Field} {s t : State} (h : OnlyChanges fs s t) (hsub : fs ⊆ gs := by decide) :
    OnlyChanges gs s t := fun f hf => h f fun hm => hf (hsub hm)

/-! A named update changes the part that it names. -/

theorem withLines_onlyChanges (s : State) (v : Tab LineUnit 9) : OnlyChanges [.lines] s (s.withLines v) := by
  intro f hf; cases f <;> simp [Field.same] at hf ⊢

theorem withEnableRefused_onlyChanges (s : State) (v : LineSet) : OnlyChanges [.enableRefused] s (s.withEnableRefused v) := by
  intro f hf; cases f <;> simp [Field.same] at hf ⊢

theorem withGens_onlyChanges (s : State) (v : Tab Generator 2) : OnlyChanges [.gens] s (s.withGens v) := by
  intro f hf; cases f <;> simp [Field.same] at hf ⊢

theorem withBc_onlyChanges (s : State) (v : BankControl) : OnlyChanges [.bc] s (s.withBc v) := by
  intro f hf; cases f <;> simp [Field.same] at hf ⊢

theorem withArb_onlyChanges (s : State) (v : Arbiter) : OnlyChanges [.arb] s (s.withArb v) := by
  intro f hf; cases f <;> simp [Field.same] at hf ⊢

theorem withTxas_onlyChanges (s : State) (v : Tab Assembler 9) : OnlyChanges [.txas] s (s.withTxas v) := by
  intro f hf; cases f <;> simp [Field.same] at hf ⊢

theorem withHost_onlyChanges (s : State) (v : HostBlock) : OnlyChanges [.host] s (s.withHost v) := by
  intro f hf; cases f <;> simp [Field.same] at hf ⊢

theorem withEvq_onlyChanges (s : State) (v : EventQueue) : OnlyChanges [.evq] s (s.withEvq v) := by
  intro f hf; cases f <;> simp [Field.same] at hf ⊢

theorem withIrq_onlyChanges (s : State) (v : Irq) : OnlyChanges [.irq] s (s.withIrq v) := by
  intro f hf; cases f <;> simp [Field.same] at hf ⊢

theorem withTp_onlyChanges (s : State) (v : TablePort) : OnlyChanges [.tp] s (s.withTp v) := by
  intro f hf; cases f <;> simp [Field.same] at hf ⊢

theorem withBus_onlyChanges (s : State) (v : HostBus) : OnlyChanges [.bus] s (s.withBus v) := by
  intro f hf; cases f <;> simp [Field.same] at hf ⊢

theorem withReceived_onlyChanges (s : State) (v : Tab (List Bool) 9) : OnlyChanges [.received] s (s.withReceived v) := by
  intro f hf; cases f <;> simp [Field.same] at hf ⊢

theorem withStores_onlyChanges (s : State) (v : Tab Store 9) : OnlyChanges [.stores] s (s.withStores v) := by
  intro f hf; cases f <;> simp [Field.same] at hf ⊢

theorem withCounters_onlyChanges (s : State) (v : Tab (Tab Word 8) 9) : OnlyChanges [.counters] s (s.withCounters v) := by
  intro f hf; cases f <;> simp [Field.same] at hf ⊢

/-- The parts of the state that a host access may change when it is taken. -/
def accessChanges : Instr → List Field
  | .exchangeRestart =>
    [.lines, .enableRefused, .stores, .readers, .bc, .arb, .txas, .host, .counters, .windows, .causes, .evq, .irq]
  | .commit => [.bc, .evq, .irq]
  | .copy => [.bc, .arb]
  | .lineEnable _ => [.lines, .enableRefused, .txas]
  | .lineDisable _ => [.lines, .stores, .readers, .bc, .arb, .txas, .host, .windows, .evq, .irq]
  | .lineRestart _ => [.lines, .stores, .readers, .bc, .arb, .txas, .host, .windows, .evq, .irq]
  | .enableRefusedRead => [.enableRefused, .bus]
  | .fgPeriodWrite _ _ => [.gens]
  | .fgPhaseWrite _ _ => [.gens]
  | .fgStart _ => [.gens]
  | .fgStop _ => [.lines, .gens, .stores, .readers, .bc, .arb, .txas, .windows, .evq, .irq]
  | .groupPolicyWrite _ => [.policies, .causes, .txas, .evq, .irq]
  | .lineRelease _ => [.lines, .causes, .txas, .evq, .irq]
  | .groupRelease _ => [.lines, .causes, .txas, .evq, .irq]
  | .tpCursorWrite _ => [.tp]
  | .tpControlWrite _ => [.tp]
  | .tpDataWrite _ _ => [.tp]
  | .tpRead => [.arb, .tp, .counters]
  | .tpWrite => [.lines, .arb, .txas, .host, .causes, .evq, .irq, .tp]
  | .irqStatusWrite _ => [.irq]
  | .irqEnableWrite _ => [.irq]
  | .evqCountWrite _ => [.evq]
  | .evqHead0Read => [.evq, .bus]
  | .evqPop _ => [.evq]
  | .insertDataWrite _ => [.host]
  | .submit => [.host]
  | .discard => [.host]
  | .captureDataRead => [.host, .bus]
  | .capturePop _ => [.host]
  | _ => []

theorem exchangeRestart_onlyChanges (s : State) :
    OnlyChanges [.lines, .enableRefused, .stores, .readers, .bc, .arb, .txas, .host, .counters, .windows, .causes, .evq, .irq] s (exchangeRestart s) := by
  intro f hf
  cases f <;> simp [Field.same, exchangeRestart] at hf ⊢

theorem commit_onlyChanges (s : State) :
    OnlyChanges [.bc, .evq, .irq] s (commit s) := by
  intro f hf; cases f <;> simp [Field.same] at hf ⊢

theorem copy_onlyChanges (s : State) :
    OnlyChanges [.bc, .arb] s (copy s) := by
  intro f hf; cases f <;> simp [Field.same] at hf ⊢

theorem lineEnable_onlyChanges (v : Word) (s : State) :
    OnlyChanges [.lines, .enableRefused, .txas] s (lineEnable v s) := by
  intro f hf; cases f <;> simp [Field.same] at hf ⊢

theorem lineDisable_onlyChanges (v : Word) (s : State) :
    OnlyChanges [.lines, .stores, .readers, .bc, .arb, .txas, .host, .windows, .evq, .irq] s (lineDisable v s) := by
  intro f hf; cases f <;> simp [Field.same] at hf ⊢

theorem lineRestart_onlyChanges (v : Word) (s : State) :
    OnlyChanges [.lines, .stores, .readers, .bc, .arb, .txas, .host, .windows, .evq, .irq] s (lineRestart v s) := by
  intro f hf; cases f <;> simp [Field.same] at hf ⊢

theorem fgStop_onlyChanges (v : Word) (s : State) :
    OnlyChanges [.lines, .gens, .stores, .readers, .bc, .arb, .txas, .windows, .evq, .irq] s (fgStop v s) := by
  intro f hf; cases f <;> simp [Field.same] at hf ⊢

theorem groupPolicyWrite_onlyChanges (v : Word) (s : State) :
    OnlyChanges [.policies, .causes, .txas, .evq, .irq] s (groupPolicyWrite v s) := by
  intro f hf; cases f <;> simp [Field.same] at hf ⊢

theorem lineRelease_onlyChanges (v : Word) (s : State) :
    OnlyChanges [.lines, .causes, .txas, .evq, .irq] s (lineRelease v s) := by
  intro f hf; cases f <;> simp [Field.same, lineRelease] at hf ⊢

theorem groupRelease_onlyChanges (v : Word) (s : State) :
    OnlyChanges [.lines, .causes, .txas, .evq, .irq] s (groupRelease v s) := by
  intro f hf; cases f <;> simp [Field.same, groupRelease] at hf ⊢

theorem tpRead_onlyChanges (s : State) :
    OnlyChanges [.arb, .tp, .counters] s (tpRead s) := by
  intro f hf; cases f <;> simp [Field.same] at hf ⊢

theorem tpWrite_onlyChanges (s : State) :
    OnlyChanges [.lines, .arb, .txas, .host, .causes, .evq, .irq, .tp] s (tpWrite s) := by
  intro f hf; cases f <;> simp [Field.same] at hf ⊢

/-- A host access that is taken changes the parts of the state that `accessChanges` lists, and no other. -/
theorem takeHeld_onlyChanges (c : Instr) (s : State) : OnlyChanges (accessChanges c) s (takeHeld c s) := by
  cases c
  case exchangeRestart => exact exchangeRestart_onlyChanges s
  case commit => exact commit_onlyChanges s
  case copy => exact copy_onlyChanges s
  case lineEnable v => exact lineEnable_onlyChanges v s
  case lineDisable v => exact lineDisable_onlyChanges v s
  case lineRestart v => exact lineRestart_onlyChanges v s
  case fgStop v => exact fgStop_onlyChanges v s
  case groupPolicyWrite v => exact groupPolicyWrite_onlyChanges v s
  case lineRelease v => exact lineRelease_onlyChanges v s
  case groupRelease v => exact groupRelease_onlyChanges v s
  case tpRead => exact tpRead_onlyChanges s
  case tpWrite => exact tpWrite_onlyChanges s
  case fgPeriodWrite | fgPhaseWrite | fgStart => exact withGens_onlyChanges _ _
  case tpCursorWrite | tpControlWrite => exact withTp_onlyChanges _ _
  case tpDataWrite =>
    simp only [takeHeld, tpDataWrite]; split
    · exact withTp_onlyChanges _ _
    · exact .refl _ _
  case irqStatusWrite | irqEnableWrite => exact withIrq_onlyChanges _ _
  case evqCountWrite | evqPop => exact withEvq_onlyChanges _ _
  case evqHead0Read =>
    exact ((withEvq_onlyChanges _ _).mono (gs := [.evq, .bus])).trans (withBus_onlyChanges _ _).mono (List.Subset.refl _)
  case enableRefusedRead =>
    exact ((withEnableRefused_onlyChanges _ _).mono (gs := [.enableRefused, .bus])).trans (withBus_onlyChanges _ _).mono
      (List.Subset.refl _)
  case insertDataWrite => simp only [takeHeld, insertDataWrite]; split <;> exact withHost_onlyChanges _ _
  case submit =>
    simp only [takeHeld, submit]; split
    · exact withHost_onlyChanges _ _
    · split <;> exact withHost_onlyChanges _ _
  case discard => exact withHost_onlyChanges _ _
  case captureDataRead =>
    simp only [takeHeld, captureDataRead]; split
    · exact (withBus_onlyChanges _ _).mono
    · exact ((withHost_onlyChanges _ _).mono (gs := [.host, .bus])).trans (withBus_onlyChanges _ _).mono (List.Subset.refl _)
  case capturePop =>
    simp only [takeHeld, capturePop]; split
    · exact .refl _ _
    · exact withHost_onlyChanges _ _
  all_goals exact .refl _ _

/-! The parts of the state that each event may change. -/

theorem bitClock_onlyChanges (n : Line) (b : Bool) (s : State) :
    OnlyChanges [.stores, .received] s (bitClock n b s) := by
  intro f hf; cases f <;> simp [Field.same] at hf ⊢

theorem arbiterGrant_onlyChanges (s : State) : OnlyChanges [.arb, .tp] s (arbiterGrant s) := by
  intro f hf; cases f <;> simp [Field.same] at hf ⊢

theorem loadComplete_onlyChanges (s : State) :
    OnlyChanges [.lines, .stores, .readers, .arb, .txas, .counters, .evq, .irq] s (loadComplete s) := by
  intro f hf; cases f <;> simp [Field.same] at hf ⊢

theorem copyStepComplete_onlyChanges (s : State) :
    OnlyChanges [.bankA, .bankB, .bc, .arb, .evq, .irq] s (copyStepComplete s) := by
  intro f hf; cases f <;> simp [Field.same] at hf ⊢

theorem finishMapRead_onlyChanges (e : MapEntry) (s : State) : OnlyChanges [.arb, .tp] s (finishMapRead e s) := by
  intro f hf; cases f <;> simp [Field.same] at hf ⊢

theorem finishMapWrite_onlyChanges (e : MapEntry) (s : State) :
    OnlyChanges [.bankA, .bankB, .arb, .tp] s (finishMapWrite e s) := by
  intro f hf; cases f <;> simp [Field.same] at hf ⊢

theorem timeOut_onlyChanges (s : State) : OnlyChanges [.arb, .tp, .irq] s (timeOut s) := by
  intro f hf; cases f <;> simp [Field.same] at hf ⊢

theorem syncArrival_onlyChanges (n : Line) (sm : List Bool) (tx : Bool) (tn : List Nat) (s : State) :
    OnlyChanges [.lines, .stores, .readers, .bc, .arb, .txas, .counters, .windows, .causes, .evq, .irq, .received] s
      (syncArrival n sm tx tn s) := by
  intro f hf; cases f <;> simp [Field.same] at hf ⊢

theorem timerExpiry_onlyChanges (n : Line) (sm : List Bool) (tx : Bool) (tn : List Nat) (s : State) :
    OnlyChanges [.lines, .stores, .readers, .bc, .arb, .txas, .counters, .windows, .causes, .evq, .irq, .received] s
      (timerExpiry n sm tx tn s) := by
  intro f hf; cases f <;> simp [Field.same] at hf ⊢

theorem fgFrameStart_onlyChanges (g : Fin 2) (sm : Tab (List Bool) 8) (o : List Part) (tn : List Nat) (s : State) :
    OnlyChanges [.lines, .gens, .stores, .readers, .bc, .arb, .txas, .host, .counters, .windows, .causes, .evq, .irq,
      .received] s (fgFrameStart g sm o tn s) := by
  intro f hf; cases f <;> simp [Field.same] at hf ⊢

/-! ### Laws that rest on few parts of the state -/

/-- Whether `P` holds of a state is decided by the parts that `ds` lists. -/
def RestsOn (P : State → Prop) (ds : List Field) : Prop := ∀ s t : State, (∀ f ∈ ds, f.same s t) → P s → P t

/-- A law is kept by what changes none of the parts that it rests on. -/
theorem RestsOn.keep {P : State → Prop} {ds fs : List Field} (d : RestsOn P ds) {s t : State} (h : OnlyChanges fs s t)
    (hs : P s) (hdisj : ∀ f ∈ ds, f ∉ fs := by exact of_decide_eq_true rfl) : P t :=
  d s t (fun f hf => h f (hdisj f hf)) hs

end Sys2Proof.Machine
end

section
set_option Elab.async false -- one proof after the other, within the check's limit on threads
/-! What an invariant must be kept by so that the events of the lines' timing keep it: the steps that an arrival, an expiry and
a frame start are made of, each with what is known of the line where the event takes that step. -/

namespace Sys2Proof.Machine

/-- The line is a physical one that the far end times, so that its receiver can be in VERIFY and in LOST (R3). -/
def State.external (s : State) (n : Line) : Prop := (s.lines.get n).config.timing = .external

/-- The receiver of the line. -/
def State.receiver (s : State) (n : Line) : Receiver := (s.lines.get n).receiver

/-- The receiver of line `n` in VERIFY with a verify count, the frame timer armed. -/
def verifying (n : Line) (k : Nat) (s : State) : State :=
  s.withLines (s.lines.put n { s.lines.get n with receiver := .verify, verifyCount := k, timerArmed := true })

theorem verifying_lines (n m : Line) (k : Nat) (s : State) : (verifying n k s).lines.get m = if m = n then
    { s.lines.get n with receiver := .verify, verifyCount := k, timerArmed := true } else s.lines.get m :=
  Tab.get_put ..

/-- The line can be locked: its second on-time arrival in VERIFY, or a frame start of its generator in HUNT (R9, R14). -/
def State.canLock (s : State) (n : Line) : Prop :=
  (n ≠ hostLine ∧ s.external n ∧ s.receiver n = .verify)
    ∨ (¬ s.external n ∧ (s.lines.get n).enabled = true ∧ s.receiver n = .hunt)

/-- The steps of the events of the lines' timing. -/
structure KeptByLineEvents (P : State → Prop) : Prop where
  count : ∀ (n : PhysLine) s, P s → P (countUp n.line SYNC_ERRORS s)
  begins : ∀ n s, P s → P (beginFrame n s)
  verifies : ∀ (p : PhysLine) k s, s.external p.line → s.receiver p.line ≠ .locked → s.receiver p.line ≠ .disabled →
    (k = 1 ∨ k = 2) → P s → P (verifying p.line k s)
  hunts : ∀ (p : PhysLine) s, s.receiver p.line = .verify → P s → P (enterReceiver p.line .hunt s)
  loses : ∀ (p : PhysLine) tx s, s.external p.line → s.receiver p.line = .locked → P s → P (enterLost p.line tx s)
  locks : ∀ n s, s.canLock n → P s → P (lock n s)
  rearms : ∀ (p : PhysLine) e s, s.external p.line → s.receiver p.line = .locked → e ≤ 1 → P s → P (rearm p.line e s)
  receives : ∀ (p : PhysLine) frame short s, s.receiver p.line = .locked → P s →
    P (receiveBoundary p.line frame short s)
  transmits : ∀ n s, s.receiver n = .locked → P s → P (transmitBoundary n s)
  hostBounds : ∀ s, s.receiver hostLine = .locked → P s → P (hostBoundary s)
  starts : ∀ g k s, P s → P (s.withGens (s.gens.put g { s.gens.get g with frameStarts := k }))

/-! ### What the steps leave of the receivers -/

section
variable (n m : Line) (s : State)

@[simp] theorem countUp_external (k : Fin 8) : (countUp n k s).external m ↔ s.external m := by simp [State.external]

@[simp] theorem countUp_receiver (k : Fin 8) : (countUp n k s).receiver m = s.receiver m := by simp [State.receiver]

@[simp] theorem beginFrame_external : (beginFrame n s).external m ↔ s.external m := by simp [State.external]

@[simp] theorem beginFrame_receiver : (beginFrame n s).receiver m = s.receiver m := by simp [State.receiver]

@[simp] theorem lock_external : (lock n s).external m ↔ s.external m := by
  simp only [State.external, lock_lines]; split
  · next h => rw [h]
  · rfl

@[simp] theorem lock_receiver_self : (lock n s).receiver n = .locked := by simp [State.receiver, lock_lines]

@[simp] theorem rearm_receiver (e : Nat) : (rearm n e s).receiver m = s.receiver m := by
  simp only [State.receiver, rearm_lines]; split
  · next h => rw [h]
  · rfl

@[simp] theorem receiveBoundary_receiver (frame : List Word) (short : Bool) :
    (receiveBoundary n frame short s).receiver m = s.receiver m := by
  simp only [State.receiver, receiveBoundary_lines]; split
  · next h => rw [h.1]
  · rfl

@[simp] theorem transmitBoundary_receiver : (transmitBoundary n s).receiver m = s.receiver m := by
  simp [State.receiver]

@[simp] theorem enterReceiver_receiver_self (r : Receiver) : (enterReceiver n r s).receiver n = r := by
  simp [State.receiver, enterReceiver_lines, LineUnit.enter]

@[simp] theorem enterReceiver_external (r : Receiver) : (enterReceiver n r s).external m ↔ s.external m := by
  simp only [State.external, enterReceiver_lines, LineUnit.enter]; split
  · next h => rw [h]
  · rfl

theorem enterLost_receiver_self (tx : Bool) : (enterLost n tx s).receiver n = .lost := by
  simp [State.receiver, (enterLost_rest n n tx s).1, LineUnit.enter]

theorem enterLost_external (tx : Bool) : (enterLost n tx s).external m ↔ s.external m := by
  simp only [State.external, (enterLost_rest n m tx s).1, LineUnit.enter]; split
  · next h => rw [h]
  · rfl

end

theorem toVerify_eq (n : Line) (s : State) : toVerify n s = beginFrame n (verifying n 1 s) := rfl

/-- Two invariants that the steps keep are kept together. -/
theorem KeptByLineEvents.and {P Q : State → Prop} (a : KeptByLineEvents P) (b : KeptByLineEvents Q) :
    KeptByLineEvents (fun s => P s ∧ Q s) where
  count n s h := ⟨a.count n s h.1, b.count n s h.2⟩
  begins n s h := ⟨a.begins n s h.1, b.begins n s h.2⟩
  verifies p k s he hl hd hk h := ⟨a.verifies p k s he hl hd hk h.1, b.verifies p k s he hl hd hk h.2⟩
  hunts p s hr h := ⟨a.hunts p s hr h.1, b.hunts p s hr h.2⟩
  loses p tx s he hr h := ⟨a.loses p tx s he hr h.1, b.loses p tx s he hr h.2⟩
  locks n s hc h := ⟨a.locks n s hc h.1, b.locks n s hc h.2⟩
  rearms p e s he hr hle h := ⟨a.rearms p e s he hr hle h.1, b.rearms p e s he hr hle h.2⟩
  receives p f sh s hr h := ⟨a.receives p f sh s hr h.1, b.receives p f sh s hr h.2⟩
  transmits n s hr h := ⟨a.transmits n s hr h.1, b.transmits n s hr h.2⟩
  hostBounds s hr h := ⟨a.hostBounds s hr h.1, b.hostBounds s hr h.2⟩
  starts g k s h := ⟨a.starts g k s h.1, b.starts g k s h.2⟩

/-! ### Arrivals and expiries -/

namespace KeptByLineEvents

variable {P : State → Prop} (k : KeptByLineEvents P)
include k

theorem toVerify {p : PhysLine} {s : State} (he : s.external p.line) (hl : s.receiver p.line ≠ .locked)
    (hd : s.receiver p.line ≠ .disabled) (h : P s) : P (toVerify p.line s) :=
  k.begins _ _ (k.verifies p 1 s he hl hd (.inl rfl) h)

/-- A boundary at both sides of a physical line, in either order. -/
theorem boundary {p : PhysLine} {s : State} (hl : s.receiver p.line = .locked) (frame : List Word) (short tx : Bool)
    (h : P s) : P (boundary p.line frame short tx s) := by
  unfold Machine.boundary; split
  · exact k.receives p _ _ _ (by simpa using hl) (k.transmits _ _ hl h)
  · exact k.transmits _ _ (by simpa using hl) (k.receives p _ _ _ hl h)

theorem firstArrival {p : PhysLine} {s : State} (he : s.external p.line) (h : P s) : P (firstArrival p.line s) := by
  unfold Machine.firstArrival; split
  · next hr => exact k.toVerify he (by simp [State.receiver, hr]) (by simp [State.receiver, hr]) h
  · next hr =>
    split
    · exact k.toVerify he (by simp [State.receiver, hr]) (by simp [State.receiver, hr]) h
    · exact h
  all_goals exact h

theorem expire {p : PhysLine} {s : State} (he : s.external p.line) (tx : Bool) (h : P s) : P (expire p.line tx s) := by
  unfold Machine.expire; split
  · next hr => exact k.hunts p s hr h
  · next hr => exact k.loses p tx _ (by simpa using he) (by rw [countUp_receiver]; exact hr) (k.count p s h)
  all_goals exact h

theorem verifyArrival {p : PhysLine} {s : State} (he : s.external p.line) (hr : s.receiver p.line = .verify)
    (sm : List Bool) (tx : Bool) (h : P s) : P (verifyArrival p.line sm tx s) := by
  have hne : s.receiver p.line ≠ .locked ∧ s.receiver p.line ≠ .disabled := by simp [hr]
  unfold Machine.verifyArrival; dsimp only; split
  · split
    · have hlock := k.locks p.line s (.inl ⟨physLine_ne_host p, he, hr⟩) h
      exact k.boundary (by simp) _ _ _ (k.rearms p 0 _ (by simpa using he) (by simp) (by omega) hlock)
    · have hagain : verifying p.line 2 s
          = s.withLines (s.lines.put p.line { s.lines.get p.line with verifyCount := 2, timerArmed := true }) := by
        simp only [verifying]; rw [← hr]; rfl
      exact k.begins _ _ (hagain ▸ k.verifies p 2 s he hne.1 hne.2 (.inr rfl) h)
  · exact k.toVerify he hne.1 hne.2 h

theorem lockedArrival {p : PhysLine} {s : State} (he : s.external p.line) (hr : s.receiver p.line = .locked)
    (sm : List Bool) (tx : Bool) (h : P s) : P (lockedArrival p.line sm tx s) := by
  have counted := k.count p s h
  unfold Machine.lockedArrival; dsimp only; split
  · exact k.boundary (by simpa using hr) _ _ _ (k.rearms p 0 _ he hr (by omega) h)
  · split
    · exact k.boundary (by simpa using hr) _ _ _ (k.rearms p 0 _ (by simpa using he) (by simpa using hr) (by omega) counted)
    · split
      · exact k.boundary (by simpa using hr) _ _ _
          (k.rearms p 1 _ (by simpa using he) (by simpa using hr) (by omega) counted)
      · exact k.loses p tx _ (by simpa using he) (by simpa using hr) counted

theorem expire_firstArrival {p : PhysLine} {s : State} (he : s.external p.line) (tx : Bool) (h : P s) :
    P (Machine.firstArrival p.line (Machine.expire p.line tx s)) := by
  refine k.firstArrival ?_ (k.expire he tx h)
  unfold Machine.expire; split
  · simpa using he
  · simpa [enterLost_external] using he
  all_goals exact he

theorem judgeArrival {p : PhysLine} {s : State} (he : s.external p.line) (sm : List Bool) (tx : Bool) (h : P s) :
    P (judgeArrival p.line sm tx s) := by
  unfold Machine.judgeArrival; dsimp only; split
  · exact h
  · exact k.firstArrival he h
  · exact k.firstArrival he h
  · next hr =>
    split
    · exact k.expire_firstArrival he tx h
    · exact k.verifyArrival he hr sm tx h
  · next hr =>
    split
    · exact k.expire_firstArrival he tx h
    · exact k.lockedArrival he hr sm tx h

/-! ### Frame starts -/

omit k in
/-- What one side of a line at a frame start leaves of every line unit: a line in HUNT is locked first, and the receive
reference may change. -/
theorem takePart_line (p : Part) (s : State) (m : Line) :
    ((takePart p s).lines.get m).config = (s.lines.get m).config
      ∧ ((takePart p s).lines.get m).enabled = (s.lines.get m).enabled
      ∧ ((takePart p s).lines.get m).txCounter = (s.lines.get m).txCounter
      ∧ (takePart p s).receiver m
          = if m = p.line ∧ s.receiver m = .hunt then .locked else s.receiver m := by
  have locked : ∀ t : State, t = (if (s.lines.get p.line).receiver = .hunt then lock p.line s else s) →
      (t.lines.get m).config = (s.lines.get m).config ∧ (t.lines.get m).enabled = (s.lines.get m).enabled
        ∧ (t.lines.get m).txCounter = (s.lines.get m).txCounter
        ∧ t.receiver m = if m = p.line ∧ s.receiver m = .hunt then .locked else s.receiver m := by
    rintro t rfl
    split
    · next hh =>
      simp only [State.receiver, lock_lines]
      by_cases hm : m = p.line
      · subst hm; simp [hh]
      · simp [hm]
    · next hh =>
      refine ⟨rfl, rfl, rfl, ?_⟩
      by_cases hm : m = p.line
      · subst hm; rw [if_neg (fun h => hh h.2)]
      · simp [hm]
  obtain ⟨hc, he, hx, hr⟩ := locked _ rfl
  unfold takePart; dsimp only
  rw [← hc, ← he, ← hx, ← hr]
  generalize (if (s.lines.get p.line).receiver = .hunt then lock p.line s else s) = t
  cases p.side with
  | transmit => simp [State.receiver]
  | receive =>
    obtain ⟨q, f, -, hpart⟩ | ⟨-, hpart⟩ := receivePart_cases p.line t
    · simp only [hpart, State.receiver, beginFrame_frame, receiveBoundary_lines]
      split
      · next h => obtain ⟨rfl, -⟩ := h; exact ⟨rfl, rfl, rfl, rfl⟩
      · exact ⟨rfl, rfl, rfl, rfl⟩
    · simp [hpart, State.receiver]

omit k in
/-- What holds of a timed line throughout its frame start (R9). -/
def Timed (n : Line) (s : State) : Prop :=
  ¬ s.external n ∧ (s.lines.get n).enabled = true ∧ (s.receiver n = .hunt ∨ s.receiver n = .locked)

omit k in
theorem timed_of_timedBy {g : Fin 2} {n : Line} {s : State} (h : s.timedBy g n = true) : Timed n s := by
  simp only [State.timedBy, Bool.and_eq_true, Bool.or_eq_true, beq_iff_eq] at h
  obtain ⟨⟨hen, ht⟩, hr⟩ := h
  exact ⟨by simp [State.external, ht], hen, hr⟩

omit k in
theorem Timed.takePart {n : Line} {s : State} (h : Timed n s) (p : Part) : Timed n (takePart p s) := by
  obtain ⟨hc, he, -, hr⟩ := takePart_line p s n
  obtain ⟨hext, hen, hrec⟩ := h
  refine ⟨by simpa [State.external, hc] using hext, by rw [he]; exact hen, ?_⟩
  rw [hr]; split
  · exact .inr rfl
  · exact hrec

/-- One side of a timed line takes a frame start. -/
theorem takePart {p : Part} {s : State} (ht : Timed p.line s) (h : P s) : P (takePart p s) := by
  obtain ⟨hext, hen, hrec⟩ := ht
  have locked : ∃ t, t = (if (s.lines.get p.line).receiver = .hunt then lock p.line s else s)
      ∧ P t ∧ t.receiver p.line = .locked := by
    refine ⟨_, rfl, ?_⟩
    split
    · next hh => exact ⟨k.locks _ _ (.inr ⟨hext, hen, hh⟩) h, by simp⟩
    · next hh => exact ⟨h, hrec.resolve_left hh⟩
  obtain ⟨t, hlock, hPt, hl⟩ := locked
  unfold Machine.takePart; dsimp only
  rw [← hlock]
  cases p.side with
  | transmit => exact k.transmits _ _ hl hPt
  | receive =>
    obtain ⟨q, f, hq, hpart⟩ | ⟨hq, hpart⟩ := receivePart_cases p.line t <;> rw [hq] at hl <;> dsimp only <;> rw [hpart]
    · rw [hq]; exact k.begins _ _ (k.receives q _ _ _ hl hPt)
    · exact k.hostBounds _ hl hPt

theorem frameStart {g : Fin 2} {s : State} (o : List Part) (h : P s) : P (frameStart g o s) := by
  have sides : ∀ (l : List Part) (t : State), (∀ p ∈ l, Timed p.line t) → P t →
      P (l.foldl (fun t p => Machine.takePart p t) t) := by
    intro l
    induction l with
    | nil => intro t _ ht; exact ht
    | cons p l ih =>
      intro t hl ht
      exact ih _ (fun q hq => (hl q (by simp [hq])).takePart p) (k.takePart (hl p (by simp)) ht)
  refine sides _ _ (fun p hp => ?_) (k.starts g _ s h)
  exact timed_of_timedBy (s := s) (g := g) (by simpa using (List.mem_filter.mp hp).2)

/-! ### The events as steps -/

omit k in
/-- What the event leaves on the gathered list is left when the queue has taken its records. -/
theorem inTurn_of_event (hq : ∀ s q, P s → P (s.withEvq q)) (hr : ∀ r s, P s → P (appendRecord r s)) (turns : List Nat)
    (f : State → State) (s : State) (h : P (f (s.withEvq { s.evq with records := [] }))) : P (inTurn turns f s) :=
  foldl_invariant P _ (fun t r => hr r t) _ _ (hq _ _ h)

section
variable (hq : ∀ s q, P s → P (s.withEvq q)) (hr : ∀ r s, P s → P (appendRecord r s))
  (hb : ∀ n b s, P s → P (bitClock n b s))
include hq hr hb

theorem syncArrival (p : PhysLine) (sm : List Bool) (tx : Bool) (tn : List Nat) (s : State) (h : P s) :
    P (syncArrival p.line sm tx tn s) := by
  unfold Machine.syncArrival; split
  · next he =>
    exact inTurn_of_event hq hr _ _ _ (k.judgeArrival (by simpa [State.external] using he) _ _
      (hq _ _ (bitClocks_keeps hb _ _ h)))
  · exact h

theorem timerExpiry (p : PhysLine) (sm : List Bool) (tx : Bool) (tn : List Nat) (s : State) (h : P s) :
    P (timerExpiry p.line sm tx tn s) := by
  unfold Machine.timerExpiry; split
  · next he =>
    exact inTurn_of_event hq hr _ _ _ (k.expire (by simpa [State.external] using he.1) _
      (hq _ _ (bitClocks_keeps hb _ _ h)))
  · exact h

theorem fgFrameStart (g : Fin 2) (sm : Tab (List Bool) 8) (o : List Part) (tn : List Nat) (s : State) (h : P s) :
    P (fgFrameStart g sm o tn s) := by
  unfold Machine.fgFrameStart; split
  · exact inTurn_of_event hq hr _ _ _ (k.frameStart _ (hq _ _ (frameBitClocks_keeps hb _ _ h)))
  · exact h

end

/-- An invariant that rests on nothing of the queue, the interrupt, the bus and the inputs is kept by every effect, if it is kept
by the steps of the line events and by the effects named here. -/
theorem kept {ds : List Field} (d : RestsOn P ds)
    (bit : ∀ n b s, P s → P (bitClock n b s)) (reset : P State.reset) (grant : ∀ s, P s → P (arbiterGrant s))
    (load : ∀ s, P s → P (loadComplete s)) (copyStep : ∀ s, P s → P (copyStepComplete s))
    (mapRead : ∀ e s, s.arb.grant = some (.hostRead e) → P s → P (finishMapRead e s))
    (mapWrite : ∀ e s, s.arb.grant = some (.hostWrite e) → P s → P (finishMapWrite e s))
    (timeOut : ∀ s, P s → P (timeOut s)) (access : ∀ c s, s.stretched = false → P s → P (takeHeld c s))
    (hin : ∀ f ∈ ds, f ∉ [Field.bus, .pending, .incoming, .evq, .irq] := by decide) : Kept P :=
  have free : ∀ s t, OnlyChanges [.bus, .pending, .incoming, .evq, .irq] s t → P s → P t :=
    fun s t h hs => d.keep h hs hin
  have hq : ∀ s q, P s → P (s.withEvq q) := fun s q => free _ _ (withEvq_onlyChanges s q).mono
  have hr : ∀ r s, P s → P (appendRecord r s) := fun r s => free _ _ (by
    intro f hf; cases f <;> simp [Field.same] at hf ⊢)
  { bus := fun s b => free _ _ (withBus_onlyChanges s b).mono
    pending := fun s q => free _ _ (by intro f hf; cases f <;> simp [Field.same] at hf ⊢)
    incoming := fun s q => free _ _ (by intro f hf; cases f <;> simp [Field.same] at hf ⊢)
    reset, bit, grant, load, copyStep, mapRead, mapWrite, timeOut, access
    arrival := k.syncArrival hq hr bit
    expiry := k.timerExpiry hq hr bit
    frameStart := k.fgFrameStart hq hr bit }

end KeptByLineEvents

end Sys2Proof.Machine
end

section
set_option Elab.async false -- one proof after the other, within the check's limit on threads
/-! What the commands of the table port and the loops over the lines can do, said once. -/

namespace Sys2Proof.Machine

/-! ### TP_COMMAND (R181) -/

theorem indexIn_lt {k i : Nat} (h : i < k) : indexIn k i = some ⟨i, h⟩ := by simp [indexIn, h]

/-- What TP_COMMAND READ can do: it ends with a refusal, places a claim for a map table, or reads another table's record. -/
inductive TpReadEffect (s : State) : State → Prop where
  | refused (r : TpResult) (hr : r ≠ .ok) : TpReadEffect s (tpEnd r s)
  | claims (ht : s.tp.tableId.toNat ≤ 1) (hi : s.tp.index.toNat < 528) : TpReadEffect s (placeHostClaim .read s)
  | reads : TpReadEffect s (tpEnd .ok (readRecord s))

theorem tpRead_effect (s : State) : TpReadEffect s (tpRead s) := by
  unfold tpRead
  split
  · exact .refused _ (by decide)
  · split
    · exact .refused _ (by decide)
    · next hsize =>
      split
      · next ht => exact .claims ht (by simpa [tableSize, ht] using hsize)
      · exact .reads

/-- What TP_COMMAND WRITE can do: it ends with a refusal, places a claim with the entry of the data words in STABLE, or
replaces the configuration record of a line, which is not live or keeps its timing fields. -/
inductive TpWriteEffect (s : State) : State → Prop where
  | refused (r : TpResult) (hr : r ≠ .ok) : TpWriteEffect s (tpEnd r s)
  | claims (e : MapEntry) (hid : s.tp.tableId.toNat = 0) (hp : s.bc.pair = .stable) :
    TpWriteEffect s (placeHostClaim (.write e) s)
  | config (n : Line) (c : LineConfig) (hc : c.inRange n = true)
    (hlive : (s.lines.get n).enabled = false ∨ (s.lines.get n).config.timingDiffers c = false) :
    TpWriteEffect s (tpEnd .ok (writeConfig n c s))

theorem tpWrite_effect (s : State) : TpWriteEffect s (tpWrite s) := by
  unfold tpWrite
  split
  · exact .refused _ (by decide)
  split
  · exact .refused _ (by decide)
  next hsize =>
  split
  · next hid =>
    unfold writeMap; split
    · exact .refused _ (by decide)
    · next e he =>
      split
      · next hp => exact .claims e hid hp
      · exact .refused _ (by decide)
  split
  · next hid =>
    have hi : s.tp.index.toNat < 9 := by simpa [tableSize, hid] using hsize
    rw [indexIn_lt hi]; dsimp only
    unfold writeLineConfig; split
    · exact .refused _ (by decide)
    · next c hc =>
      split
      · exact .refused _ (by decide)
      · next hl =>
        obtain ⟨-, hr⟩ := Option.filter_eq_some_iff.mp hc
        refine .config _ c hr ?_
        cases he : (s.lines.get ⟨s.tp.index.toNat, hi⟩).enabled with
        | false => exact .inl rfl
        | true => exact .inr (by simpa [he] using hl)
  · exact .refused _ (by decide)

/-- Every line after a configuration record has been replaced. -/
theorem writeConfig_lines (n m : Line) (c : LineConfig) (s : State) :
    (writeConfig n c s).lines.get m = if m = n then { s.lines.get n with config := c } else s.lines.get m := by
  unfold writeConfig; dsimp only
  split <;> split <;> simp [moveGroup, Tab.get_put]

/-! ### Lines enabled, disabled, restarted and halted -/

/-- Every line after the enable of one (R10, R11). -/
theorem enableLine_lines (n m : Line) (s : State) :
    (enableLine n s).lines.get m = if m = n ∧ s.fitsGenerator n = true then
      { (s.lines.get n).enter .hunt with enabled := true, txCounter := 0 } else s.lines.get m := by
  unfold enableLine; split
  · next h => simp [h, zeroLastWords, Tab.get_put]
  · next h => simp [h]

/-- A property that each line's own part of a write keeps is kept by the write. -/
theorem lineEnable_keeps {P : State → Prop} (h : ∀ n s, (s.lines.get n).enabled = false → P s → P (enableLine n s))
    (v : Word) (s : State) (hs : P s) : P (lineEnable v s) := by
  refine foldl_invariant P _ (fun t n ht => ?_) _ _ hs
  split
  · next hc => exact h n t (by simp_all) ht
  · exact ht

theorem lineDisable_keeps {P : State → Prop} (h : ∀ n s, (s.lines.get n).enabled = true → P s → P (disableLine n s))
    (v : Word) (s : State) (hs : P s) : P (lineDisable v s) := by
  refine foldl_invariant P _ (fun t n ht => ?_) _ _ hs
  split
  · next hc => exact h n t (by simp_all) ht
  · exact ht

theorem lineRestart_keeps {P : State → Prop} (h : ∀ n s, (s.lines.get n).enabled = true → P s → P (restartLine n s))
    (v : Word) (s : State) (hs : P s) : P (lineRestart v s) := by
  refine foldl_invariant P _ (fun t n ht => ?_) _ _ hs
  split
  · next hc => exact h n t (by simp_all) ht
  · exact ht

theorem fgStop_keeps {P : State → Prop}
    (h : ∀ n g s, (s.lines.get n).enabled = true → (s.lines.get n).config.timing = .fg g → P s → P (haltLine n s))
    (hg : ∀ g s, P s → P (s.withGens (s.gens.put g { s.gens.get g with running := false })))
    (v : Word) (s : State) (hs : P s) : P (fgStop v s) := by
  have one : ∀ g t, P t → P (stopIfCoded v g t) := by
    intro g t ht
    unfold stopIfCoded; split
    · refine foldl_invariant P _ (fun u n hu => ?_) _ _ (hg g t ht)
      split
      · next hc => exact h n g u (by simp_all) (by simp_all) hu
      · exact hu
    · exact ht
  exact one 1 _ (one 0 s hs)

/-! ### Banks -/

/-- A bank replaced leaves every other part of the state. -/
@[simp] theorem State.withBank_frame (s : State) (b : BankName) (v : Bank) :
    (s.withBank b v).lines = s.lines ∧ (s.withBank b v).enableRefused = s.enableRefused ∧ (s.withBank b v).gens = s.gens ∧
    (s.withBank b v).stores = s.stores ∧ (s.withBank b v).readers = s.readers ∧ (s.withBank b v).bc = s.bc ∧
    (s.withBank b v).arb = s.arb ∧ (s.withBank b v).txas = s.txas ∧ (s.withBank b v).host = s.host ∧
    (s.withBank b v).counters = s.counters ∧ (s.withBank b v).windows = s.windows ∧ (s.withBank b v).causes = s.causes ∧
    (s.withBank b v).policies = s.policies ∧ (s.withBank b v).evq = s.evq ∧ (s.withBank b v).irq = s.irq ∧
    (s.withBank b v).tp = s.tp ∧ (s.withBank b v).bus = s.bus ∧ (s.withBank b v).pending = s.pending ∧
    (s.withBank b v).received = s.received ∧ (s.withBank b v).incoming = s.incoming := by
  cases b <;> simp [State.withBank]

/-! ### Loads -/

/-- Every line after a frame has been fixed: the transmit frame counter of a physical line advances (R25). -/
theorem fixFrame_lines (y m : Line) (s : State) : (fixFrame y s).lines.get m = if m = y ∧ y ≠ hostLine then
    { s.lines.get y with txCounter := (s.lines.get y).txCounter + 1 } else s.lines.get m := by
  unfold fixFrame; by_cases h : y = hostLine <;> simp [h, Tab.get_put]

end Sys2Proof.Machine
end

section
set_option Elab.async false -- one proof after the other, within the check's limit on threads
/-! Receivers stay consistent with their enables, timing sources, counts and timers (R9 to R22): the settling of obligation
O51. -/

namespace Sys2Proof.Machine

theorem receiverLaw_restsOn : RestsOn ReceiverLaw [.lines] := by
  intro s t h
  have hl : t.lines = s.lines := h .lines (by simp)
  simp only [ReceiverLaw, hl]; exact id

/-- The law of one receiver rests on its state, its enable, its timing source, its counts and its timer. -/
theorem LineUnit.law.congr {a b : LineUnit} (h : a.law) (ht : b.config.timing = a.config.timing := by rfl)
    (hen : b.enabled = a.enabled := by rfl) (hr : b.receiver = a.receiver := by rfl)
    (hv : b.verifyCount = a.verifyCount := by rfl) (he : b.earlyCount = a.earlyCount := by rfl)
    (ha : b.timerArmed = a.timerArmed := by rfl) : b.law := by
  unfold LineUnit.law at h ⊢; rw [hen, hr, ht, hv, he, ha]; exact h

/-- A receiver in HUNT or DISABLED with its counts 0 and its timer disarmed. -/
theorem LineUnit.law_enter {l : LineUnit} {r : Receiver} (hr : r ≠ .verify ∧ r ≠ .locked)
    (hl : r = .lost → l.config.timing = .external) (hen : l.enabled = true ↔ r ≠ .disabled) : (l.enter r).law := by
  simp [LineUnit.law, LineUnit.enter, hr, hen]; exact hl

namespace ReceiverLaw

/-- The laws of the receivers after one line unit has been replaced by one that meets the law. -/
theorem put {s t : State} (h : ReceiverLaw s) {n : Line} {l : LineUnit} (hl : l.law)
    (hh : n = hostLine → l.config.timing ≠ .external)
    (ht : ∀ m, t.lines.get m = if m = n then l else s.lines.get m) : ReceiverLaw t := by
  refine ⟨fun m => ?_, ?_⟩ <;> rw [ht] <;> split
  · exact hl
  · exact h.1 m
  · next hn => exact hh hn.symm
  · exact h.2

/-- A change of a line unit that keeps its configuration. -/
theorem putSameConfig {s t : State} (h : ReceiverLaw s) {n : Line} {l : LineUnit}
    (ht : ∀ m, t.lines.get m = if m = n then l else s.lines.get m)
    (hc : l.config = (s.lines.get n).config) (hl : l.law) : ReceiverLaw t :=
  h.put hl (by rintro rfl; rw [hc]; exact h.2) ht

theorem ne_host {s : State} (h : ReceiverLaw s) {n : Line} (he : s.external n) : n ≠ hostLine := by
  rintro rfl; exact h.2 he

/-! ### The events of the lines' timing -/

theorem keptByLineEvents : KeptByLineEvents ReceiverLaw where
  count n s h := receiverLaw_restsOn _ _ (by simp [Field.same]) h
  begins n s h := receiverLaw_restsOn _ _ (by simp [Field.same]) h
  starts g k s h := receiverLaw_restsOn _ _ (by simp [Field.same]) h
  hostBounds s _ h := receiverLaw_restsOn _ _ (by simp [Field.same]) h
  transmits n s _ h := receiverLaw_restsOn _ _ (by simp [Field.same]) h
  receives p frame short s _ h := by
    by_cases hr : (s.stores.get p.line).receiving = true
    · refine h.putSameConfig (n := p.line) (l := { s.lines.get p.line with rxRef := (judge (s.lines.get p.line) frame short).ref })
        (fun m => by simp only [receiveBoundary_lines, hr, and_true]) rfl ?_
      exact (h.1 p.line).congr
    · refine receiverLaw_restsOn s _ (fun f hf => ?_) h
      rw [List.mem_singleton.mp hf]
      exact Tab.ext_get fun m => by simp [receiveBoundary_lines, hr]
  verifies p k s he hl hd hk h := by
    refine h.putSameConfig (fun m => verifying_lines p.line m k s) rfl ?_
    obtain ⟨hen, -, -, -, hearly, hzero⟩ := h.1 p.line
    refine ⟨?_, fun _ => he, by simp, by simpa using hk, hearly, fun _ => hzero hl⟩
    simpa using hen.mpr hd
  hunts p s hr h := by
    refine h.putSameConfig (fun m => enterReceiver_lines p.line m .hunt s) rfl ?_
    refine LineUnit.law_enter (by decide) (by simp) ?_
    have hr : (s.lines.get p.line).receiver = _ := hr
    have : (s.lines.get p.line).receiver ≠ .disabled := by simp [hr]
    simpa using (h.1 p.line).1.mpr this
  loses p tx s he hr h := by
    refine h.putSameConfig (fun m => (enterLost_rest p.line m tx s).1) rfl ?_
    refine LineUnit.law_enter (by decide) (fun _ => he) ?_
    have hr : (s.lines.get p.line).receiver = _ := hr
    have : (s.lines.get p.line).receiver ≠ .disabled := by simp [hr]
    simpa using (h.1 p.line).1.mpr this
  locks n s hcan h := by
    refine h.putSameConfig (fun m => lock_lines n m s) rfl ?_
    obtain ⟨hen, hext, harm, -, -, -⟩ := h.1 n
    obtain ⟨-, he, hr⟩ | ⟨he, hon, hr⟩ := hcan
    · have hr : (s.lines.get n).receiver = .verify := hr
      have hne : (s.lines.get n).receiver ≠ .disabled := by simp [hr]
      have harmed := harm.mpr (.inl hr)
      have he : (s.lines.get n).config.timing = .external := he
      simp [LineUnit.law, hen.mpr hne, he, harmed]
    · have hr : (s.lines.get n).receiver = .hunt := hr
      have he : (s.lines.get n).config.timing ≠ .external := he
      have harmed : (s.lines.get n).timerArmed ≠ true := fun ha => by simpa [hr] using harm.mp ha
      simp [LineUnit.law, hon, he, harmed]
  rearms p e s he hr hle h := by
    refine h.putSameConfig (fun m => rearm_lines p.line m e s) rfl ?_
    obtain ⟨hen, -, -, hv, -, -⟩ := h.1 p.line
    have hr : (s.lines.get p.line).receiver = .locked := hr
    have he : (s.lines.get p.line).config.timing = .external := he
    simp [LineUnit.law, hr, he, hle] at hv hen ⊢
    exact ⟨hen, hv⟩

/-! ### The host accesses -/

theorem writeConfig {n : Line} {c : LineConfig} {s : State} (hc : c.inRange n = true)
    (hlive : (s.lines.get n).enabled = false ∨ (s.lines.get n).config.timingDiffers c = false) (h : ReceiverLaw s) :
    ReceiverLaw (writeConfig n c s) := by
  refine h.put (n := n) ?_ ?_ (fun m => writeConfig_lines n m c s)
  · obtain hoff | hsame := hlive
    · have hd : (s.lines.get n).receiver = .disabled := by
        by_contra hne; simp [(h.1 n).1.mpr hne] at hoff
      have hl := h.1 n
      simp only [LineUnit.law, hd] at hl ⊢
      simpa using hl
    · refine (h.1 n).congr ?_
      simp only [LineConfig.timingDiffers, Bool.or_eq_false_iff, bne_eq_false_iff_eq] at hsame
      exact hsame.1.1.2.symm
  · rintro rfl
    simp only [LineConfig.inRange, if_true, Bool.and_eq_true, bne_iff_ne] at hc
    exact hc.1.1.1.1.2

theorem releaseLines (named : Line → Bool) {s : State} (h : ReceiverLaw s) : ReceiverLaw (releaseLines named s) := by
  have line := fun n => (releaseLines_spec named s n).1
  refine ⟨fun n => ?_, ?_⟩
  · rw [line n]; split
    · split
      · next hl =>
        obtain ⟨hen, -, -, -, -, hzero⟩ := h.1 n
        have hon := hen.mpr (by simp [hl])
        have hearly := hzero (by simp [hl])
        simp [LineUnit.law, hon, hearly]
      · exact h.1 n
    · exact h.1 n
  · rw [line hostLine]; split
    · split <;> exact h.2
    · exact h.2

theorem exchangeRestart {s : State} (h : ReceiverLaw s) : ReceiverLaw (exchangeRestart s) := by
  have line : ∀ n, (Machine.exchangeRestart s).lines.get n = (s.lines.get n).restarted := fun n => by
    simp [Machine.exchangeRestart]
  refine ⟨fun n => ?_, ?_⟩
  · rw [line]; unfold LineUnit.restarted; split
    · next hon =>
      exact (LineUnit.law_enter (l := s.lines.get n) (r := .hunt) (by decide) (by simp) (by simpa using hon)).congr
    · exact (h.1 n).congr
  · rw [line]; unfold LineUnit.restarted; split <;> exact h.2

theorem takeHeld (c : Instr) {s : State} (h : ReceiverLaw s) : ReceiverLaw (takeHeld c s) := by
  cases c
  case exchangeRestart => exact h.exchangeRestart
  case lineEnable v =>
    refine lineEnable_keeps (fun n t _ ht => ?_) v s h
    by_cases hf : t.fitsGenerator n = true
    · exact ht.putSameConfig (n := n) (l := { (t.lines.get n).enter .hunt with enabled := true, txCounter := 0 })
        (fun m => by simp only [enableLine_lines, hf, and_true]) rfl
        (LineUnit.law_enter (l := { t.lines.get n with enabled := true }) (r := .hunt) (by decide) (by simp) (by simp)).congr
    · refine receiverLaw_restsOn t _ (fun f hm => ?_) ht
      rw [List.mem_singleton.mp hm]
      exact Tab.ext_get fun m => by simp [enableLine_lines, hf]
  case lineDisable v =>
    refine lineDisable_keeps (fun n t _ ht => ?_) v s h
    exact ht.putSameConfig (fun m => disableLine_lines n m t) rfl
      (LineUnit.law_enter (l := { t.lines.get n with enabled := false }) (r := .disabled) (by decide) (by simp) (by simp)).congr
  case lineRestart v =>
    refine lineRestart_keeps (fun n t hon ht => ?_) v s h
    exact ht.putSameConfig (fun m => restartLine_lines n m t) rfl
      (LineUnit.law_enter (l := t.lines.get n) (r := .hunt) (by decide) (by simp) (by simpa using hon)).congr
  case fgStop v =>
    refine fgStop_keeps (fun n g t hon _ ht => ?_) (fun g t ht => receiverLaw_restsOn _ _ (by simp [Field.same]) ht) v s h
    exact ht.putSameConfig (fun m => haltLine_lines n m t) rfl
      (LineUnit.law_enter (by decide) (by simp) (by simpa using hon))
  case lineRelease v => exact h.releaseLines _
  case groupRelease v => exact h.releaseLines _
  case tpWrite =>
    have effect := tpWrite_effect s
    change ReceiverLaw (tpWrite s)
    generalize tpWrite s = t at effect ⊢
    cases effect with
    | refused => exact receiverLaw_restsOn s _ (by simp [Field.same]) h
    | claims => exact receiverLaw_restsOn s _ (by simp [Field.same]) h
    | config n c hc hlive => exact receiverLaw_restsOn _ _ (by simp [Field.same]) (h.writeConfig hc hlive)
  all_goals exact receiverLaw_restsOn.keep (takeHeld_onlyChanges _ _) h

/-! ### Every step -/

theorem loadComplete {s : State} (h : ReceiverLaw s) : ReceiverLaw (loadComplete s) := by
  unfold Machine.loadComplete
  split
  · next y program live _ =>
    split
    · have hsel : ReceiverLaw (selectSources y program (freePort s)) := receiverLaw_restsOn s _ (by simp [Field.same]) h
      generalize selectSources y program (freePort s) = t at hsel
      have line : ∀ m, ((fixFrame y t).lines.get m).law ∧
          ((fixFrame y t).lines.get m).config = (t.lines.get m).config := by
        intro m
        rw [fixFrame_lines]; split
        · next hm => obtain ⟨rfl, -⟩ := hm; exact ⟨(hsel.1 m).congr, rfl⟩
        · exact ⟨hsel.1 m, rfl⟩
      exact ⟨fun m => (line m).1, by rw [(line hostLine).2]; exact hsel.2⟩
    · exact receiverLaw_restsOn s _ (by simp [Field.same]) h
  all_goals exact h

theorem reset : ReceiverLaw State.reset := by
  refine ⟨fun n => ?_, by simp [State.reset, LineUnit.reset, LineConfig.reset]⟩
  simp [State.reset, LineUnit.reset, LineUnit.law]

theorem kept : Kept ReceiverLaw :=
  keptByLineEvents.kept receiverLaw_restsOn
    (bit := fun n b s h => receiverLaw_restsOn.keep (bitClock_onlyChanges n b s) h)
    (reset := reset)
    (grant := fun s h => receiverLaw_restsOn.keep (arbiterGrant_onlyChanges s) h)
    (load := fun _ h => h.loadComplete)
    (copyStep := fun s h => receiverLaw_restsOn.keep (copyStepComplete_onlyChanges s) h)
    (mapRead := fun e s _ h => receiverLaw_restsOn.keep (finishMapRead_onlyChanges e s) h)
    (mapWrite := fun e s _ h => receiverLaw_restsOn.keep (finishMapWrite_onlyChanges e s) h)
    (timeOut := fun s h => receiverLaw_restsOn.keep (timeOut_onlyChanges s) h)
    (access := fun c _ _ h => h.takeHeld c)

end ReceiverLaw

/-- Settles O51: every effect replaces line units by units that meet the law of one receiver, or leaves the lines. -/
theorem receiversStayConsistent : Obligations.ReceiversStayConsistent :=
  fun _ _ h hstep => ReceiverLaw.kept.step h hstep

end Sys2Proof.Machine
end

section
set_option Elab.async false -- one proof after the other, within the check's limit on threads
/-! Configuration stays in its ranges and enabled lines fit their generators (R1, R5, R7, R10, R180): the settling of
obligation O52. -/

namespace Sys2Proof.Machine

/-! ### The stretch limit -/

@[simp] theorem TablePort.advance_limit (tp : TablePort) : tp.advance.limit = tp.limit := by
  unfold TablePort.advance; split
  · split <;> rfl
  · rfl

@[simp] theorem tpEnd_limit (r : TpResult) (s : State) : (tpEnd r s).tp.limit = s.tp.limit := by
  unfold tpEnd; dsimp only; split <;> simp

@[simp] theorem readRecord_limit (s : State) : (readRecord s).tp.limit = s.tp.limit := by
  unfold readRecord readConfig readStatus readCounter setData
  dsimp only
  repeat' split
  all_goals simp

@[simp] theorem arbiterGrant_limit (s : State) : (arbiterGrant s).tp.limit = s.tp.limit := by
  unfold arbiterGrant
  repeat' split
  all_goals simp

/-! ### The law -/

theorem configLaw_restsOn : RestsOn ConfigLaw [.lines, .gens, .tp] := by
  intro s t h
  have hl : t.lines = s.lines := h .lines (by simp)
  have hg : t.gens = s.gens := h .gens (by simp)
  have ht : t.tp = s.tp := h .tp (by simp)
  simp only [ConfigLaw, hl, hg, ht]; exact id

namespace ConfigLaw

/-- The law rests on the configurations, on the enables, which may be withdrawn, on the periods and phases and on the stretch
limit. -/
theorem congr {s t : State} (h : ConfigLaw s) (hc : ∀ n, (t.lines.get n).config = (s.lines.get n).config)
    (hen : ∀ n, (t.lines.get n).enabled = true → (s.lines.get n).enabled = true)
    (hg : ∀ g, (t.gens.get g).period = (s.gens.get g).period ∧ (t.gens.get g).phase = (s.gens.get g).phase)
    (hl : t.tp.limit = s.tp.limit) : ConfigLaw t := by
  obtain ⟨range, gens, fit, limit⟩ := h
  refine ⟨fun n => by rw [hc]; exact range n, fun g => by rw [(hg g).1, (hg g).2]; exact gens g, fun n g hon => ?_,
    by rw [hl]; exact limit⟩
  rw [hc, (hg g).1]; exact fit n g (hen n hon)

/-- A change of line units that keeps their configurations and enables none. -/
theorem ofLines {s t : State} (h : ConfigLaw s)
    (hl : ∀ n, (t.lines.get n).config = (s.lines.get n).config
      ∧ ((t.lines.get n).enabled = true → (s.lines.get n).enabled = true))
    (hg : t.gens = s.gens) (ht : t.tp = s.tp) : ConfigLaw t :=
  h.congr (fun n => (hl n).1) (fun n => (hl n).2) (fun g => by simp [hg]) (by rw [ht])

/-- A line unit put in the place of one with the same configuration, whose enable it does not set. -/
theorem ofPut {s t : State} (h : ConfigLaw s) {n : Line} {l : LineUnit}
    (hl : ∀ m, t.lines.get m = if m = n then l else s.lines.get m) (hc : l.config = (s.lines.get n).config)
    (hen : l.enabled = true → (s.lines.get n).enabled = true) (hg : t.gens = s.gens) (ht : t.tp = s.tp) : ConfigLaw t := by
  refine h.ofLines (fun m => ?_) hg ht
  rw [hl]; split
  · next hm => subst hm; exact ⟨hc, hen⟩
  · exact ⟨rfl, id⟩

theorem keptByLineEvents : KeptByLineEvents ConfigLaw where
  count n s h := h.ofLines (by simp) (by simp) (by simp)
  begins n s h := h.ofLines (by simp) (by simp) (by simp)
  verifies p k s _ _ _ _ h := h.ofPut (fun m => verifying_lines p.line m k s) rfl id rfl rfl
  hunts p s _ h := h.ofPut (fun m => enterReceiver_lines p.line m .hunt s) rfl id (by simp) (by simp)
  loses p tx s _ _ h := h.ofPut (fun m => (enterLost_rest p.line m tx s).1) rfl id (by simp) (by simp)
  locks n s _ h := h.ofPut (fun m => lock_lines n m s) rfl id (by simp) (by simp)
  rearms p e s _ _ _ h := h.ofPut (fun m => rearm_lines p.line m e s) rfl id (by simp) (by simp)
  receives p frame short s _ h := by
    refine h.ofLines (fun m => ?_) (by simp) (by simp)
    rw [receiveBoundary_lines]; split
    · next hm => obtain ⟨rfl, -⟩ := hm; exact ⟨rfl, id⟩
    · exact ⟨rfl, id⟩
  transmits n s _ h := h.ofLines (by simp) (by simp) (by simp)
  hostBounds s _ h := h.ofLines (by simp) (by simp) (by simp)
  starts g k s h := by
    refine h.congr (by simp) (by simp) (fun m => ?_) (by simp)
    rw [State.withGens_gens, Tab.get_put]; split
    · next hm => subst hm; exact ⟨rfl, rfl⟩
    · exact ⟨rfl, rfl⟩

/-! ### The writes that the law constrains -/

theorem fits_external {c : LineConfig} (h : c.timing = .external) (g : Fin 2) (p : Word) : c.fits g p = true := by
  simp [LineConfig.fits, h]

/-- An enabled line fits every generator: its own by the test of R10, the other because it does not time the line. -/
theorem fits_of_fitsGenerator {s : State} {n : Line} (h : s.fitsGenerator n = true) (g : Fin 2) :
    (s.lines.get n).config.fits g (s.gens.get g).period = true := by
  unfold State.fitsGenerator at h
  split at h
  · next ht => exact fits_external ht _ _
  · next g' ht =>
    by_cases hg : g' = g
    · subst hg; exact h
    · simp [LineConfig.fits, ht, hg]

theorem enableLine {n : Line} {s : State} (h : ConfigLaw s) : ConfigLaw (enableLine n s) := by
  obtain ⟨range, gens, fit, limit⟩ := h
  have line : ∀ m, ((Machine.enableLine n s).lines.get m).config = (s.lines.get m).config
      ∧ (((Machine.enableLine n s).lines.get m).enabled = true → (s.lines.get m).enabled = true
        ∨ s.fitsGenerator m = true) := by
    intro m
    rw [enableLine_lines]; split
    · next hm => obtain ⟨rfl, hf⟩ := hm; exact ⟨rfl, fun _ => .inr hf⟩
    · exact ⟨rfl, .inl⟩
  refine ⟨fun m => by rw [(line m).1]; exact range m, by simpa using gens, fun m g hon => ?_, by simpa using limit⟩
  simp only [(line m).1, enableLine_frame]
  obtain hon | hf := (line m).2 hon
  · exact fit m g hon
  · exact fits_of_fitsGenerator hf g

theorem fgPeriodWrite {g : Fin 2} {v : Word} {s : State} (h : ConfigLaw s) : ConfigLaw (fgPeriodWrite g v s) := by
  by_cases hr : periodRefused s g v = true
  · refine h.congr (fun _ => rfl) (fun _ => id) (fun m => ?_) rfl
    simp only [Machine.fgPeriodWrite, hr, if_true, State.withGens_gens, Tab.get_put]; split
    · next hm => subst hm; exact ⟨rfl, rfl⟩
    · exact ⟨rfl, rfl⟩
  · obtain ⟨range, gens, fit, limit⟩ := h
    have gen : ∀ m, (Machine.fgPeriodWrite g v s).gens.get m
        = if m = g then { s.gens.get g with period := v, refused := false } else s.gens.get m := by
      intro m; simp only [Machine.fgPeriodWrite, hr, State.withGens_gens, Tab.get_put]; rfl
    simp only [periodRefused, Bool.or_eq_true, decide_eq_true_eq, Bool.not_eq_true', not_or, Nat.not_lt, Nat.not_le,
      Bool.not_eq_false, State.allFit, List.all_eq_true] at hr
    obtain ⟨⟨⟨-, hlow⟩, hphase⟩, hfit⟩ := hr
    refine ⟨range, fun m => ?_, fun n m hon => ?_, limit⟩ <;> rw [gen] <;> split
    · exact ⟨hlow, hphase⟩
    · exact gens m
    · next hm =>
      subst hm; change (s.lines.get n).config.fits _ _ = true
      simpa [show (s.lines.get n).enabled = true from hon] using hfit n (mem_allLines n)
    · exact fit n m hon

theorem fgPhaseWrite {g : Fin 2} {v : Word} {s : State} (h : ConfigLaw s) : ConfigLaw (fgPhaseWrite g v s) := by
  by_cases hr : phaseRefused s g v = true
  · refine h.congr (fun _ => rfl) (fun _ => id) (fun m => ?_) rfl
    simp only [Machine.fgPhaseWrite, hr, if_true, State.withGens_gens, Tab.get_put]; split
    · next hm => subst hm; exact ⟨rfl, rfl⟩
    · exact ⟨rfl, rfl⟩
  · obtain ⟨range, gens, fit, limit⟩ := h
    have gen : ∀ m, (Machine.fgPhaseWrite g v s).gens.get m
        = if m = g then { s.gens.get g with phase := v, refused := false } else s.gens.get m := by
      intro m; simp only [Machine.fgPhaseWrite, hr, State.withGens_gens, Tab.get_put]; rfl
    simp only [phaseRefused, Bool.or_eq_true, decide_eq_true_eq, not_or, Nat.not_le] at hr
    refine ⟨range, fun m => ?_, fun n m hon => ?_, limit⟩ <;> rw [gen] <;> split
    · next hm => subst hm; exact ⟨(gens m).1, hr.2⟩
    · exact gens m
    · next hm => subst hm; exact fit n m hon
    · exact fit n m hon

theorem fgStart {v : Word} {s : State} (h : ConfigLaw s) : ConfigLaw (fgStart v s) := by
  refine h.congr (fun _ => rfl) (fun _ => id) (fun m => ?_) rfl
  simp only [Machine.fgStart, State.withGens_gens, Tab.get_of, Generator.start]
  split
  · split <;> exact ⟨rfl, rfl⟩
  · exact ⟨rfl, rfl⟩

theorem tpControlWrite {v : Word} {s : State} (h : ConfigLaw s) : ConfigLaw (tpControlWrite v s) := by
  obtain ⟨range, gens, fit, limit⟩ := h
  refine ⟨range, gens, fit, ?_⟩
  simp only [Machine.tpControlWrite, State.withTp_tp]; split
  · exact limit
  · next hne =>
    have hlt : v.field 8 8 < 2 ^ 8 := Nat.mod_lt _ (by decide)
    rw [BitVec.toNat_ofNat, Nat.mod_eq_of_lt hlt]
    omega

theorem writeConfig {n : Line} {c : LineConfig} {s : State} (hc : c.inRange n = true)
    (hlive : (s.lines.get n).enabled = false ∨ (s.lines.get n).config.timingDiffers c = false) (h : ConfigLaw s) :
    ConfigLaw (writeConfig n c s) := by
  obtain ⟨range, gens, fit, limit⟩ := h
  have hframe := writeConfig_frame n c s
  refine ⟨fun m => ?_, by simpa using gens, fun m g hon => ?_, by simpa using limit⟩
  · rw [writeConfig_lines]; split
    · next hm => subst hm; exact hc
    · exact range m
  · simp only [writeConfig_lines, writeConfig_frame] at hon ⊢
    split at hon
    · next hm =>
      subst hm
      obtain hoff | hsame := hlive
      · exact absurd hon (by simp [hoff])
      · simp only [LineConfig.timingDiffers, Bool.or_eq_false_iff, bne_eq_false_iff_eq] at hsame
        obtain ⟨⟨⟨hk, ht⟩, hd⟩, -⟩ := hsame
        have := fit m g hon
        simpa [LineConfig.fits, LineConfig.frameRefclks, hk, ht, hd] using this
    · next hm => rw [if_neg hm]; exact fit m g hon

theorem takeHeld (c : Instr) {s : State} (h : ConfigLaw s) : ConfigLaw (takeHeld c s) := by
  cases c
  case exchangeRestart =>
    refine h.ofLines (fun n => ?_) rfl rfl
    simp only [Machine.takeHeld, exchangeRestart, Tab.get_of, LineUnit.restarted]
    split <;> exact ⟨rfl, id⟩
  case lineEnable v => exact lineEnable_keeps (fun n t _ ht => ht.enableLine) v s h
  case lineDisable v =>
    exact lineDisable_keeps (fun n t _ ht => ht.ofPut (fun m => disableLine_lines n m t) rfl (by simp) (by simp) (by simp))
      v s h
  case lineRestart v =>
    exact lineRestart_keeps (fun n t _ ht => ht.ofPut (fun m => restartLine_lines n m t) rfl id (by simp) (by simp)) v s h
  case fgStop v =>
    refine fgStop_keeps (fun n g t _ _ ht => ht.ofPut (fun m => haltLine_lines n m t) rfl id (by simp) (by simp))
      (fun g t ht => ht.congr (fun _ => rfl) (fun _ => id) (fun m => ?_) rfl) v s h
    rw [State.withGens_gens, Tab.get_put]; split
    · next hm => subst hm; exact ⟨rfl, rfl⟩
    · exact ⟨rfl, rfl⟩
  case fgPeriodWrite g v => exact h.fgPeriodWrite
  case fgPhaseWrite g v => exact h.fgPhaseWrite
  case fgStart v => exact h.fgStart
  case lineRelease v | groupRelease v =>
    refine h.ofLines (fun n => ?_) (by simp [Machine.takeHeld, lineRelease, groupRelease])
      (by simp [Machine.takeHeld, lineRelease, groupRelease])
    simp only [Machine.takeHeld, lineRelease, groupRelease, releaseLines_spec]
    split
    · split <;> exact ⟨rfl, id⟩
    · exact ⟨rfl, id⟩
  case tpCursorWrite v => exact h.congr (fun _ => rfl) (fun _ => id) (fun _ => ⟨rfl, rfl⟩) rfl
  case tpControlWrite v => exact h.tpControlWrite
  case tpDataWrite k v =>
    simp only [Machine.takeHeld, tpDataWrite]; split
    · exact h.congr (fun _ => rfl) (fun _ => id) (fun _ => ⟨rfl, rfl⟩) rfl
    · exact h
  case tpRead =>
    have effect := tpRead_effect s
    change ConfigLaw (tpRead s)
    generalize tpRead s = t at effect ⊢
    cases effect with
    | refused r hr => exact h.congr (by simp) (by simp) (by simp) (by simp)
    | claims => exact h.congr (by simp) (by simp) (by simp) (by simp [placeHostClaim])
    | reads => exact h.congr (by simp) (by simp) (by simp) (by simp)
  case tpWrite =>
    have effect := tpWrite_effect s
    change ConfigLaw (tpWrite s)
    generalize tpWrite s = t at effect ⊢
    cases effect with
    | refused => exact h.congr (by simp) (by simp) (by simp) (by simp)
    | claims => exact h.congr (by simp) (by simp) (by simp) (by simp [placeHostClaim])
    | config n c hc hlive => exact (h.writeConfig hc hlive).congr (by simp) (by simp) (by simp) (by simp)
  all_goals exact configLaw_restsOn.keep (takeHeld_onlyChanges _ _) h

/-! ### Every step -/

theorem loadComplete {s : State} (h : ConfigLaw s) : ConfigLaw (loadComplete s) := by
  unfold Machine.loadComplete
  split
  · next y program live _ =>
    split
    · refine h.ofLines (fun m => ?_) (by simp) (by simp)
      rw [fixFrame_lines]; split
      · next hm => obtain ⟨rfl, -⟩ := hm; simp
      · simp
    · exact h.ofLines (by simp) (by simp) (by simp)
  all_goals exact h

theorem reset : ConfigLaw State.reset := by
  refine ⟨by decide, by decide, fun n g hon => ?_, by decide⟩
  simp [State.reset, LineUnit.reset] at hon

theorem kept : Kept ConfigLaw :=
  keptByLineEvents.kept configLaw_restsOn
    (bit := fun n b s h => configLaw_restsOn.keep (bitClock_onlyChanges n b s) h)
    (reset := reset)
    (grant := fun s h => h.congr (by simp) (by simp) (by simp) (by simp))
    (load := fun _ h => h.loadComplete)
    (copyStep := fun s h => configLaw_restsOn.keep (copyStepComplete_onlyChanges s) h)
    (mapRead := fun e s _ h => h.congr (by simp) (by simp) (by simp) (by simp [finishMapRead]))
    (mapWrite := fun e s _ h => h.congr (by simp) (by simp) (by simp) (by simp [finishMapWrite]))
    (timeOut := fun s h => h.congr (by simp) (by simp) (by simp) (by simp [Machine.timeOut]))
    (access := fun c _ _ h => h.takeHeld c)

end ConfigLaw

/-- Settles O52: what changes a configuration, an enable, a period, a phase or the stretch limit is tested first. -/
theorem configurationStaysInRange : Obligations.ConfigurationStaysInRange :=
  fun _ _ h hstep => ConfigLaw.kept.step h hstep

end Sys2Proof.Machine
end

section
set_option Elab.async false -- one proof after the other, within the check's limit on threads
/-! The arbiter after each operation of the lines: what becomes of the load queue and of the grant. -/

namespace Sys2Proof.Machine

/-! ### Load claims withdrawn and placed (R84, R85) -/

/-- The arbiter after the load claims of a line are withdrawn (R85). -/
def Arbiter.withdrawn (n : Line) (a : Arbiter) : Arbiter :=
  { a with loadQueue := a.loadQueue.filter (· != n), grant := a.grant.map (Grant.killLoad n) }

@[simp] theorem Grant.killLoad_isHost (n : Line) (g : Grant) : (g.killLoad n).isHost = g.isHost := by
  cases g <;> rfl

@[simp] theorem any_killLoad_isHost (n : Line) (g : Option Grant) :
    (g.map (Grant.killLoad n)).any Grant.isHost = g.any Grant.isHost := by
  cases g <;> simp

theorem withdrawLoad_arb (n : Line) (s : State) : (withdrawLoad n s).arb = s.arb.withdrawn n := rfl

theorem transmitStop_arb (n : Line) (s : State) : (transmitStop n s).arb = s.arb.withdrawn n := by
  unfold transmitStop; dsimp only
  rw [State.withTxas_arb, withdrawLoad_arb]; simp

theorem stopLine_arb (n : Line) (s : State) : (stopLine n s).arb = s.arb.withdrawn n := by
  unfold stopLine; rw [transmitStop_arb]; simp

theorem stopIfRunning_arb (n : Line) (s : State) :
    (stopIfRunning n s).arb = if s.running n then s.arb.withdrawn n else s.arb := by
  unfold stopIfRunning; split
  · exact stopLine_arb n s
  · rfl

theorem enterLost_arb (n : Line) (tx : Bool) (s : State) : (enterLost n tx s).arb = s.arb.withdrawn n := by
  unfold enterLost; dsimp only; split
  · simp [transmitStop_arb]
  · rw [transmitStop_arb]; simp

theorem haltLine_arb (n : Line) (s : State) : (haltLine n s).arb = (stopIfRunning n s).arb := by simp [haltLine]

theorem disableLine_arb (n : Line) (s : State) : (disableLine n s).arb = (stopIfRunning n s).arb := by
  obtain ⟨-, -, -, -, -, h, -⟩ := disableLine_rest n s; exact h

theorem restartLine_arb (n : Line) (s : State) : (restartLine n s).arb = (stopIfRunning n s).arb := by
  unfold restartLine; dsimp only; split <;> simp

theorem transmitBoundary_arb (n : Line) (s : State) : (transmitBoundary n s).arb
    = { s.arb.withdrawn n with loadQueue := s.arb.loadQueue.filter (· != n) ++ [n] } := by
  simp [transmitBoundary, placeLoad, Arbiter.withdrawn]

theorem freePort_arb (s : State) : (freePort s).arb = { s.arb with grant := none } := rfl

theorem loadComplete_arb {s : State} {y : Line} {p : List MapEntry} {live : Bool}
    (h : s.arb.grant = some (.load y p live)) : (loadComplete s).arb = { s.arb with grant := none } := by
  unfold loadComplete; rw [h]; dsimp only; split <;> simp [freePort_arb]

theorem loadComplete_of_no_load {s : State} (h : ∀ y p live, s.arb.grant ≠ some (.load y p live)) :
    loadComplete s = s := by
  unfold loadComplete; split
  · next hg => exact absurd hg (h _ _ _)
  all_goals rfl

theorem copyStepComplete_of_no_step {s : State} (h : ∀ i live, s.arb.grant ≠ some (.copyStep i live)) :
    copyStepComplete s = s := by
  unfold copyStepComplete; split
  · next hg => exact absurd hg (h _ _)
  all_goals rfl

end Sys2Proof.Machine
end

section
set_option Elab.async false -- one proof after the other, within the check's limit on threads
/-! One table-port operation in flight, its timer, and the accesses that wait for it (R176, R185): the settling of obligation
O60. -/

namespace Sys2Proof.Machine

/-! ### The host's part of table memory -/

/-- The waiting host claim, whether the grant is a host operation, and the stretch-limit timer. -/
def State.hostPart (s : State) : Option HostOp × Bool × Option Nat :=
  (s.arb.hostClaim, s.arb.grant.any Grant.isHost, s.tp.timer)

theorem hostPart_congr {s t : State} (ha : t.arb = s.arb) (ht : t.tp = s.tp) : t.hostPart = s.hostPart := by
  simp [State.hostPart, ha, ht]

theorem hostPart_withdrawn {s t : State} {n : Line} (ha : t.arb = s.arb.withdrawn n) (ht : t.tp = s.tp) :
    t.hostPart = s.hostPart := by
  simp [State.hostPart, ha, ht, Arbiter.withdrawn]

theorem stretched_of_hostPart {s t : State} (h : t.hostPart = s.hostPart) : t.stretched = s.stretched := by
  simp only [State.hostPart, Prod.mk.injEq] at h
  simp [State.stretched, Arbiter.hostInFlight, h]

theorem stopIfRunning_hostPart (n : Line) (s : State) : (stopIfRunning n s).hostPart = s.hostPart := by
  unfold stopIfRunning; split
  · exact hostPart_withdrawn (stopLine_arb n s) (by simp)
  · rfl

/-- The events of the lines' timing place and withdraw load claims only. -/
theorem hostPart_keptByLineEvents (c) : KeptByLineEvents (fun s => s.hostPart = c) where
  count n s h := (hostPart_congr (by simp) (by simp)).trans h
  begins n s h := (hostPart_congr (by simp) (by simp)).trans h
  verifies p k s _ _ _ _ h := h
  hunts p s _ h := (hostPart_congr (by simp) (by simp)).trans h
  loses p tx s _ _ h := (hostPart_withdrawn (enterLost_arb p.line tx s) (by simp)).trans h
  locks n s _ h := (hostPart_congr (by simp) (by simp)).trans h
  rearms p e s _ _ _ h := (hostPart_congr (by simp) (by simp)).trans h
  receives p frame short s _ h := (hostPart_congr (by simp) (by simp)).trans h
  transmits n s _ h := by
    refine Eq.trans ?_ h
    simp [State.hostPart, transmitBoundary_arb, Arbiter.withdrawn]
  hostBounds s _ h := (hostPart_congr (by simp) (by simp)).trans h
  starts g k s h := h

theorem hostPart_restsOn (c) : RestsOn (fun s => s.hostPart = c) [.arb, .tp] :=
  fun _ _ h hs => (hostPart_congr (h .arb (by simp)) (h .tp (by simp))).trans hs

/-- The events that leave the host's part of table memory: those of the lines' timing, and the ends of a load and of a copy
step. -/
inductive LeavesHostPart (s : State) : State → Prop where
  | arrival (p : PhysLine) (sm tx tn) : LeavesHostPart s (syncArrival p.line sm tx tn s)
  | expiry (p : PhysLine) (sm tx tn) : LeavesHostPart s (timerExpiry p.line sm tx tn s)
  | frameStart (g sm o tn) : LeavesHostPart s (fgFrameStart g sm o tn s)
  | load : LeavesHostPart s (loadComplete s)
  | copyStep : LeavesHostPart s (copyStepComplete s)

theorem hostPart_freed {s t : State} (ha : t.arb.hostClaim = s.arb.hostClaim) (hg : t.arb.grant = none)
    (hs : s.arb.grant.any Grant.isHost = false) (ht : t.tp = s.tp) : t.hostPart = s.hostPart := by
  simp [State.hostPart, ha, hg, hs, ht]

theorem loadComplete_hostPart (s : State) : (loadComplete s).hostPart = s.hostPart := by
  by_cases h : ∃ y p live, s.arb.grant = some (.load y p live)
  · obtain ⟨y, p, live, hg⟩ := h
    exact hostPart_freed (by rw [loadComplete_arb hg]) (by rw [loadComplete_arb hg]) (by simp [hg, Grant.isHost]) (by simp)
  · rw [loadComplete_of_no_load (by simpa using h)]

theorem advanceCopy_arb (s : State) : (advanceCopy s).arb = if s.bc.copyIndex + 1 < Config.mapEntries then
    { s.arb with copyClaim := some (s.bc.copyIndex + 1) } else s.arb := by
  unfold advanceCopy; dsimp only; split <;> simp

theorem copyStepComplete_hostPart (s : State) : (copyStepComplete s).hostPart = s.hostPart := by
  by_cases h : ∃ i live, s.arb.grant = some (.copyStep i live)
  · obtain ⟨i, live, hg⟩ := h
    have hfree : (copyStepComplete s).arb.hostClaim = s.arb.hostClaim ∧ (copyStepComplete s).arb.grant = none := by
      unfold copyStepComplete; rw [hg]; dsimp only
      split
      · rw [advanceCopy_arb]; split <;> simp [freePort_arb]
      · simp [freePort_arb]
    exact hostPart_freed hfree.1 hfree.2 (by simp [hg, Grant.isHost]) (by simp)
  · rw [copyStepComplete_of_no_step (by simpa using h)]

theorem LeavesHostPart.hostPart {s t : State} (h : LeavesHostPart s t) : t.hostPart = s.hostPart := by
  have k := hostPart_keptByLineEvents s.hostPart
  have d := hostPart_restsOn s.hostPart
  have hq : ∀ (u : State) q, u.hostPart = s.hostPart → (u.withEvq q).hostPart = s.hostPart :=
    fun u q => d.keep (withEvq_onlyChanges u q)
  have hr : ∀ r (u : State), u.hostPart = s.hostPart → (appendRecord r u).hostPart = s.hostPart :=
    fun r u hu => (hostPart_congr (by simp) (by simp)).trans hu
  have hb : ∀ n b (u : State), u.hostPart = s.hostPart → (bitClock n b u).hostPart = s.hostPart :=
    fun n b u => d.keep (bitClock_onlyChanges n b u)
  cases h with
  | arrival p sm tx tn => exact k.syncArrival hq hr hb p sm tx tn s rfl
  | expiry p sm tx tn => exact k.timerExpiry hq hr hb p sm tx tn s rfl
  | frameStart g sm o tn => exact k.fgFrameStart hq hr hb g sm o tn s rfl
  | load => exact loadComplete_hostPart s
  | copyStep => exact copyStepComplete_hostPart s

/-! ### The host accesses -/

theorem tpEnd_hostPart (r : TpResult) (s : State) :
    (tpEnd r s).hostPart = (s.arb.hostClaim, s.arb.grant.any Grant.isHost, none) := by
  simp only [State.hostPart, tpEnd_frame]; rfl

theorem placeHostClaim_hostPart (op : HostOp) (s : State) : (placeHostClaim op s).hostPart
    = (some op, s.arb.grant.any Grant.isHost, some (s.tp.limit.toNat * Config.stretchUnit)) := rfl

/-- Of the host accesses only an operation of the table port touches the host's part of table memory: it ends at once or
places a claim. -/
theorem takeHeld_hostPart (c : Instr) (s : State) :
    (takeHeld c s).hostPart = s.hostPart
      ∨ (takeHeld c s).hostPart = (s.arb.hostClaim, s.arb.grant.any Grant.isHost, none)
      ∨ ∃ op k, (takeHeld c s).hostPart = (some op, s.arb.grant.any Grant.isHost, some k) := by
  cases c
  case tpRead =>
    have effect := tpRead_effect s
    change (tpRead s).hostPart = _ ∨ (tpRead s).hostPart = _ ∨ ∃ op k, (tpRead s).hostPart = _
    generalize tpRead s = t at effect ⊢
    cases effect with
    | refused r hr => exact .inr (.inl (tpEnd_hostPart r s))
    | claims => exact .inr (.inr ⟨_, _, placeHostClaim_hostPart _ s⟩)
    | reads => exact .inr (.inl (by rw [tpEnd_hostPart]; simp))
  case tpWrite =>
    have effect := tpWrite_effect s
    change (tpWrite s).hostPart = _ ∨ (tpWrite s).hostPart = _ ∨ ∃ op k, (tpWrite s).hostPart = _
    generalize tpWrite s = t at effect ⊢
    cases effect with
    | refused r hr => exact .inr (.inl (tpEnd_hostPart r s))
    | claims => exact .inr (.inr ⟨_, _, placeHostClaim_hostPart _ s⟩)
    | config => exact .inr (.inl (by rw [tpEnd_hostPart]; simp))
  case exchangeRestart =>
    refine .inl ?_
    have hgrant : (s.arb.grant.map Grant.restarted).any Grant.isHost = s.arb.grant.any Grant.isHost := by
      cases s.arb.grant with
      | none => rfl
      | some g => cases g <;> rfl
    simp only [State.hostPart, takeHeld, exchangeRestart, Arbiter.restarted, hgrant]
  case copy =>
    refine .inl ?_
    simp only [takeHeld, copy]; split <;> rfl
  case lineDisable v =>
    exact .inl (lineDisable_keeps (P := fun t => t.hostPart = s.hostPart) (fun n t _ ht => by
      rw [← ht, ← stopIfRunning_hostPart n t]; exact hostPart_congr (disableLine_arb n t) (by simp)) v s rfl)
  case lineRestart v =>
    exact .inl (lineRestart_keeps (P := fun t => t.hostPart = s.hostPart) (fun n t _ ht => by
      rw [← ht, ← stopIfRunning_hostPart n t]; exact hostPart_congr (restartLine_arb n t) (by simp)) v s rfl)
  case fgStop v =>
    exact .inl (fgStop_keeps (P := fun t => t.hostPart = s.hostPart) (fun n g t _ _ ht => by
      rw [← ht, ← stopIfRunning_hostPart n t]; exact hostPart_congr (haltLine_arb n t) (by simp))
      (fun g t ht => ht) v s rfl)
  case tpCursorWrite | tpControlWrite => exact .inl rfl
  case tpDataWrite k v =>
    refine .inl ?_
    simp only [takeHeld, tpDataWrite]; split <;> rfl
  all_goals exact .inl ((hostPart_restsOn _).keep (takeHeld_onlyChanges _ s) rfl)

/-- A host access leaves the accesses that wait. -/
theorem takeHeld_held (c : Instr) (s : State) : (takeHeld c s).bus.held = s.bus.held := by
  have same : ∀ fs, OnlyChanges fs s (takeHeld c s) → Field.bus ∉ fs → (takeHeld c s).bus.held = s.bus.held :=
    fun fs h hf => congrArg HostBus.held (h .bus hf)
  cases c
  case enableRefusedRead | evqHead0Read => rfl
  case captureDataRead => simp only [takeHeld, captureDataRead]; split <;> rfl
  all_goals exact same _ (takeHeld_onlyChanges _ s) (of_decide_eq_true rfl)

/-! ### The law of the table port -/

theorem tablePortLaw_restsOn : RestsOn TablePortLaw [.arb, .tp] := by
  intro s t h
  have ha : t.arb = s.arb := h .arb (by simp)
  have ht : t.tp = s.tp := h .tp (by simp)
  simp only [TablePortLaw, ha, ht]; exact id

namespace TablePortLaw

theorem of_hostPart {s t : State} (h : TablePortLaw s) (he : t.hostPart = s.hostPart) : TablePortLaw t := by
  simp only [State.hostPart, Prod.mk.injEq] at he
  simpa only [TablePortLaw, he] using h

/-- With no claim waiting and no timer running the law holds. -/
theorem of_no_claim {t : State} (hc : t.arb.hostClaim = none) (ht : t.tp.timer = none) : TablePortLaw t := by
  simp [TablePortLaw, hc, ht]

theorem arbiterGrant {s : State} (h : TablePortLaw s) : TablePortLaw (arbiterGrant s) := by
  unfold Machine.arbiterGrant
  split
  · exact h
  next hgrant =>
  split
  · exact h.of_hostPart (by simp [State.hostPart, loadGrant, Grant.isHost, hgrant])
  split
  · exact of_no_claim rfl rfl
  split
  · exact h.of_hostPart (by simp [State.hostPart, Grant.isHost, hgrant])
  · exact h

theorem takeHeld {c : Instr} {s : State} (hr : s.stretched = false) (h : TablePortLaw s) : TablePortLaw (takeHeld c s) := by
  simp only [State.stretched, Arbiter.hostInFlight, Bool.or_eq_false_iff, Option.isSome_eq_false_iff,
    Option.isNone_iff_eq_none] at hr
  obtain ⟨hclaim, hgrant⟩ := hr
  obtain he | he | ⟨op, k, he⟩ := takeHeld_hostPart c s
  · exact h.of_hostPart he
  · simp only [State.hostPart, Prod.mk.injEq] at he
    exact of_no_claim (he.1.trans hclaim) he.2.2
  · simp only [State.hostPart, Prod.mk.injEq] at he
    simp [TablePortLaw, he, hgrant]

/-- A host operation that ends had no claim waiting beside its grant. -/
theorem no_claim {s : State} (h : TablePortLaw s) {g : Grant} (hg : s.arb.grant = some g) (hh : g.isHost = true) :
    s.arb.hostClaim = none := by
  by_contra hne
  exact h.1 ⟨Option.isSome_iff_ne_none.mpr hne, by simp [hg, hh]⟩

theorem kept : Kept TablePortLaw where
  bus s b h := tablePortLaw_restsOn.keep (withBus_onlyChanges s b) h
  pending s q h := tablePortLaw_restsOn s _ (by simp [Field.same]) h
  incoming s q h := tablePortLaw_restsOn s _ (by simp [Field.same]) h
  reset := of_no_claim rfl rfl
  bit n b s h := tablePortLaw_restsOn.keep (bitClock_onlyChanges n b s) h
  arrival p sm tx tn s h := h.of_hostPart (LeavesHostPart.arrival p sm tx tn).hostPart
  expiry p sm tx tn s h := h.of_hostPart (LeavesHostPart.expiry p sm tx tn).hostPart
  frameStart g sm o tn s h := h.of_hostPart (LeavesHostPart.frameStart g sm o tn).hostPart
  grant s h := h.arbiterGrant
  load s h := h.of_hostPart LeavesHostPart.load.hostPart
  copyStep s h := h.of_hostPart LeavesHostPart.copyStep.hostPart
  mapRead e s hg h := of_no_claim (by simpa [finishMapRead] using h.no_claim hg rfl) rfl
  mapWrite e s hg h := of_no_claim (by simpa [finishMapWrite] using h.no_claim hg rfl) rfl
  timeOut s h := of_no_claim (by simp [timeOut]) rfl
  access c s hr h := h.takeHeld hr

end TablePortLaw

/-! ### Accesses that wait -/

namespace ReadyLaw

theorem of_no_access {s : State} (h : s.bus.held = []) : ReadyLaw s := fun hne => absurd h hne

theorem congr {s t : State} (h : ReadyLaw s) (hb : t.bus = s.bus) (hs : t.stretched = s.stretched) : ReadyLaw t := by
  simpa only [ReadyLaw, hb, hs] using h

/-- When the accesses that wait have been taken, one waits still only behind a map operation that one of them started. -/
theorem drainHeld (l : List Instr) : ∀ s : State, s.bus.held = [] → ReadyLaw (drainHeld l s) := by
  induction l with
  | nil => intro s h; exact of_no_access h
  | cons c cs ih =>
    intro s h
    unfold Machine.drainHeld; split
    · next hs => exact fun _ => hs
    · exact ih _ (by rw [takeHeld_held, h])

theorem returnReady (s : State) : ReadyLaw (returnReady s) := drainHeld _ _ rfl

theorem arbiterGrant {s : State} (h : ReadyLaw s) : ReadyLaw (arbiterGrant s) := by
  refine h.congr (by simp) ?_
  unfold Machine.arbiterGrant
  split
  · rfl
  next hgrant =>
  split
  · simp [State.stretched, Arbiter.hostInFlight, loadGrant, Grant.isHost, hgrant]
  split
  · next op hop =>
    cases op <;> simp [State.stretched, Arbiter.hostInFlight, hostGrant, Grant.isHost, hop]
  split
  · simp [State.stretched, Arbiter.hostInFlight, Grant.isHost, hgrant]
  · rfl

theorem event {s t : State} (h : ReadyLaw s) (e : EventEffect s t) : ReadyLaw t := by
  have leaves : ∀ {u : State}, LeavesHostPart s u → u.bus = s.bus → ReadyLaw u :=
    fun hu hb => h.congr hb (stretched_of_hostPart hu.hostPart)
  cases e with
  | deviceReset => exact of_no_access rfl
  | syncArrival p sm tx tn => exact leaves (.arrival p sm tx tn) (by simp)
  | timerExpiry p sm tx tn => exact leaves (.expiry p sm tx tn) (by simp)
  | fgFrameStart g sm o tn => exact leaves (.frameStart g sm o tn) (by simp)
  | arbiterGrant => exact h.arbiterGrant
  | loadComplete => exact leaves .load (by simp)
  | copyStepComplete => exact leaves .copyStep (by simp)
  | mapReadComplete =>
    unfold mapReadComplete; split
    · exact returnReady _
    all_goals exact h
  | mapWriteComplete =>
    unfold mapWriteComplete; split
    · exact returnReady _
    all_goals exact h
  | stretchLimitExpiry =>
    unfold stretchLimitExpiry; split
    · exact returnReady _
    · exact h

theorem step {s t : State} (h : ReadyLaw s) (hstep : step s = .next t) : ReadyLaw t := by
  obtain ⟨-, rfl⟩ | ⟨c, rest, -, hexec⟩ := step_cases hstep
  · exact h.congr (by simp) (by simp [State.stretched])
  · have h : ReadyLaw (s.withPending rest) := h
    obtain ⟨-, e⟩ | ⟨-, hr, rfl⟩ | ⟨-, hr, rfl⟩ := exec_cases hexec
    · exact h.event e
    · refine of_no_access ?_
      rw [takeHeld_held]
      by_contra hne
      exact absurd (h hne) (by simp [hr])
    · exact fun _ => hr

end ReadyLaw

/-- Settles O60: only a table-port operation, its grant and its end touch the host's part of table memory; the waiting accesses
are taken in the step that ends the operation. -/
theorem oneTablePortOperationInFlight : Obligations.OneTablePortOperationInFlight :=
  fun _ _ ⟨hport, hready⟩ hstep => ⟨TablePortLaw.kept.step hport hstep, hready.step hstep⟩

end Sys2Proof.Machine
end

section
set_option Elab.async false -- one proof after the other, within the check's limit on threads
/-! The operations of the lines leave every configuration record. -/

namespace Sys2Proof.Machine

/-- A line unit put in the place of one with the same record leaves every record. -/
theorem config_of_put {s t : State} {n : Line} {l : LineUnit}
    (hl : ∀ m, t.lines.get m = if m = n then l else s.lines.get m) (hc : l.config = (s.lines.get n).config) (m : Line) :
    (t.lines.get m).config = (s.lines.get m).config := by
  rw [hl]; split
  · next h => rw [h, hc]
  · rfl

section
variable (n m : Line) (s : State)

@[simp] theorem lock_config : ((lock n s).lines.get m).config = (s.lines.get m).config :=
  config_of_put (fun _ => lock_lines ..) rfl m

@[simp] theorem rearm_config (e : Nat) : ((rearm n e s).lines.get m).config = (s.lines.get m).config :=
  config_of_put (fun _ => rearm_lines ..) rfl m

@[simp] theorem enterReceiver_config (r : Receiver) : ((enterReceiver n r s).lines.get m).config = (s.lines.get m).config :=
  config_of_put (fun _ => enterReceiver_lines ..) rfl m

@[simp] theorem disableLine_config : ((disableLine n s).lines.get m).config = (s.lines.get m).config :=
  config_of_put (fun _ => disableLine_lines ..) rfl m

@[simp] theorem restartLine_config : ((restartLine n s).lines.get m).config = (s.lines.get m).config :=
  config_of_put (fun _ => restartLine_lines ..) rfl m

@[simp] theorem haltLine_config : ((haltLine n s).lines.get m).config = (s.lines.get m).config :=
  config_of_put (fun _ => haltLine_lines ..) rfl m

@[simp] theorem verifying_config (k : Nat) : ((verifying n k s).lines.get m).config = (s.lines.get m).config :=
  config_of_put (fun _ => verifying_lines ..) rfl m

@[simp] theorem enterLost_config (tx : Bool) : ((enterLost n tx s).lines.get m).config = (s.lines.get m).config :=
  config_of_put (fun k => (enterLost_rest n k tx s).1) rfl m

@[simp] theorem receiveBoundary_config (frame : List Word) (short : Bool) :
    ((receiveBoundary n frame short s).lines.get m).config = (s.lines.get m).config := by
  rw [receiveBoundary_lines]; split
  · next h => rw [h.1]
  · rfl

@[simp] theorem enableLine_config : ((enableLine n s).lines.get m).config = (s.lines.get m).config := by
  rw [enableLine_lines]; split
  · next h => rw [h.1]; rfl
  · rfl

@[simp] theorem fixFrame_config : ((fixFrame n s).lines.get m).config = (s.lines.get m).config := by
  rw [fixFrame_lines]; split
  · next h => rw [h.1]
  · rfl

@[simp] theorem report_config (v : Verdict) : ((report n v s).lines.get m).config = (s.lines.get m).config := by
  refine config_of_put (n := n) (l := { s.lines.get n with rxRef := v.ref }) (fun k => ?_) rfl m
  simp [report, Tab.get_put]

@[simp] theorem releaseLine_config : ((releaseLine n s).lines.get m).config = (s.lines.get m).config := by
  rw [releaseLine_lines]; split
  · next h => rw [h]; split <;> rfl
  · rfl

@[simp] theorem releaseLines_config (named : Line → Bool) :
    ((releaseLines named s).lines.get m).config = (s.lines.get m).config := by
  rw [(releaseLines_spec named s m).1]; split
  · split <;> rfl
  · rfl

@[simp] theorem exchangeRestart_config : ((exchangeRestart s).lines.get m).config = (s.lines.get m).config := by
  simp only [exchangeRestart, Tab.get_of, LineUnit.restarted]; split <;> rfl

theorem loadComplete_config : ((loadComplete s).lines.get m).config = (s.lines.get m).config := by
  unfold loadComplete; split
  · split <;> simp
  all_goals rfl

end

end Sys2Proof.Machine
end

section
set_option Elab.async false -- one proof after the other, within the check's limit on threads
/-! The collections of the host line block stay within their bounds (R129 to R133, R139, R140): the settling of obligation
O58. -/

namespace Sys2Proof.Machine

/-- The bounds of the collections of a host line block with a number of slots. -/
def HostBlock.Bounded (h : HostBlock) (slots : Nat) : Prop :=
  h.compose.length ≤ slots
    ∧ (∀ f, h.insertPending = some f → f.slotCount = slots ∧ f.words.length = slots)
    ∧ h.captures.length ≤ Config.captureCapacity
    ∧ match h.captures with
      | [] => h.readIndex = 0
      | c :: _ => h.readIndex ≤ c.slotCount - 1

theorem hostBlockLaw_iff (s : State) : HostBlockLaw s ↔ s.host.Bounded s.hostSlots := Iff.rfl

namespace HostBlock.Bounded
variable {h : HostBlock} {slots : Nat}

/-- With no composed word and no pending frame the number of slots does not bear on the bounds. -/
theorem of_empty (hb : h.Bounded slots) {g : HostBlock} (hc : g.compose = []) (hp : g.insertPending = none)
    (hq : g.captures = h.captures) (hr : g.readIndex = h.readIndex) (k : Nat) : g.Bounded k := by
  obtain ⟨-, -, hcap, hread⟩ := hb
  exact ⟨by simp [hc], by simp [hp], by rw [hq]; exact hcap, by rw [hq, hr]; exact hread⟩

/-- With every collection empty the bounds hold. -/
theorem of_all_empty {g : HostBlock} (hc : g.compose = []) (hp : g.insertPending = none) (hq : g.captures = [])
    (hr : g.readIndex = 0) (k : Nat) : g.Bounded k :=
  ⟨by simp [hc], by simp [hp], by simp [hq], by rw [hq]; exact hr⟩

theorem clearInsert (hb : h.Bounded slots) (k : Nat) : h.clearInsert.Bounded k :=
  hb.of_empty (g := h.clearInsert) rfl rfl rfl rfl k

theorem disabled (k : Nat) : h.disabled.Bounded k := of_all_empty rfl rfl rfl rfl k

/-- A captured frame behind those of before. -/
theorem append (hb : h.Bounded slots) (c : CapturedFrame) (hroom : h.captures.length < 8) (run : Bool) :
    ({ h with captures := h.captures ++ [c], overflowRun := run } : HostBlock).Bounded slots := by
  obtain ⟨hc, hp, -, hread⟩ := hb
  refine ⟨hc, hp, by simp only [List.length_append, List.length_singleton, Config.captureCapacity]; omega, ?_⟩
  cases hq : h.captures with
  | nil => rw [hq] at hread; simp [hread]
  | cons d ds => rw [hq] at hread; exact hread

end HostBlock.Bounded

theorem hostBlockLaw_restsOn : RestsOn HostBlockLaw [.host, .lines] := by
  intro s t h
  have hh : t.host = s.host := h .host (by simp)
  have hl : t.lines = s.lines := h .lines (by simp)
  simp only [HostBlockLaw, State.hostSlots, hh, hl]; exact id

namespace HostBlockLaw

/-- The law rests on the block and on the slot count of the host line. -/
theorem congr {s t : State} (h : HostBlockLaw s) (hh : t.host = s.host)
    (hc : (t.lines.get hostLine).config = (s.lines.get hostLine).config) : HostBlockLaw t := by
  simpa only [HostBlockLaw, State.hostSlots, hh, hc] using h

theorem appendCapture {s : State} (h : HostBlockLaw s) (c : CapturedFrame) : HostBlockLaw (appendCapture c s) := by
  have hslots : (Machine.appendCapture c s).hostSlots = s.hostSlots := by simp [State.hostSlots]
  rw [hostBlockLaw_iff, hslots, appendCapture_host]
  split
  · next hroom => exact HostBlock.Bounded.append h c hroom false
  · exact h

theorem hostBoundary {s : State} (h : HostBlockLaw s) : HostBlockLaw (hostBoundary s) := by
  have handed : HostBlockLaw (handOver s) := by
    have hslots : (handOver s).hostSlots = s.hostSlots := by simp [State.hostSlots]
    obtain ⟨hc, -, hcap, hread⟩ := h
    rw [hostBlockLaw_iff, hslots, handOver_host]
    exact ⟨hc, by simp, hcap, hread⟩
  unfold Machine.hostBoundary deliverCapture
  dsimp only
  split
  · refine appendCapture (HostBlockLaw.congr (s := handOver s) handed ?_ ?_) _ <;> rfl
  · exact handed

theorem keptByLineEvents : KeptByLineEvents HostBlockLaw where
  count n s h := h.congr (by simp) (by simp)
  begins n s h := h.congr (by simp) (by simp)
  verifies p k s _ _ _ _ h := h.congr rfl (by simp)
  hunts p s _ h := h.congr (by simp) (by simp)
  loses p tx s _ _ h := h.congr (by simp) (by simp)
  locks n s _ h := h.congr (by simp) (by simp)
  rearms p e s _ _ _ h := h.congr (by simp) (by simp)
  receives p frame short s _ h := h.congr (by simp) (by simp)
  transmits n s _ h := h.congr (by simp) (by simp)
  hostBounds s _ h := h.hostBoundary
  starts g k s h := h.congr rfl rfl

/-! ### The host accesses -/

theorem submit {s : State} (h : HostBlockLaw s) : HostBlockLaw (submit s) := by
  obtain ⟨hc, hp, hcap, hread⟩ := h
  unfold Machine.submit
  split
  · exact ⟨hc, hp, hcap, hread⟩
  split
  · exact ⟨hc, hp, hcap, hread⟩
  · next hfull =>
    refine ⟨Nat.zero_le _, fun f hf => ?_, hcap, hread⟩
    cases hf
    exact ⟨rfl, Nat.le_antisymm hc (Nat.not_lt.mp hfull)⟩

theorem insertDataWrite {v : Word} {s : State} (h : HostBlockLaw s) : HostBlockLaw (insertDataWrite v s) := by
  obtain ⟨hc, hp, hcap, hread⟩ := h
  unfold Machine.insertDataWrite
  split
  · next hroom =>
    refine ⟨?_, hp, hcap, hread⟩
    rw [State.withHost_host]; simp only [List.length_append, List.length_singleton]
    exact hroom
  · exact ⟨hc, hp, hcap, hread⟩

theorem captureDataRead {s : State} (h : HostBlockLaw s) : HostBlockLaw (captureDataRead s) := by
  unfold Machine.captureDataRead
  split
  · exact h
  · next c rest hq =>
    obtain ⟨hc, hp, hcap, hread⟩ := h
    refine ⟨hc, hp, hcap, ?_⟩
    simp only [hq] at hread
    simp only [driveData_frame, State.withHost_host, hq]
    split
    · omega
    · exact hread

theorem capturePop {s : State} (h : HostBlockLaw s) : HostBlockLaw (capturePop s) := by
  unfold Machine.capturePop
  split
  · exact h
  · next c rest hq =>
    obtain ⟨hc, hp, hcap, -⟩ := h
    refine ⟨hc, hp, ?_, ?_⟩
    · rw [hq] at hcap; exact Nat.le_of_succ_le hcap
    · rw [State.withHost_host]; cases rest <;> simp

theorem writeConfig {n : Line} {c : LineConfig} {s : State} (h : HostBlockLaw s) : HostBlockLaw (writeConfig n c s) := by
  have hhost : (Machine.writeConfig n c s).host = if n = hostLine ∧ c.slotCount ≠ (s.lines.get n).config.slotCount then
      s.host.clearInsert else s.host := by
    unfold Machine.writeConfig; dsimp only
    split <;> split <;> simp
  rw [hostBlockLaw_iff, hhost]
  split
  · exact HostBlock.Bounded.clearInsert h _
  · next hsame =>
    have hslots : (Machine.writeConfig n c s).hostSlots = s.hostSlots := by
      simp only [State.hostSlots, writeConfig_lines]
      split
      · next hn => by_contra hne; exact hsame ⟨hn.symm, by rw [← hn]; exact hne⟩
      · rfl
    rw [hslots]; exact h

theorem takeHeld (c : Instr) {s : State} (h : HostBlockLaw s) : HostBlockLaw (takeHeld c s) := by
  cases c
  case exchangeRestart => exact HostBlock.Bounded.of_all_empty rfl rfl rfl rfl _
  case lineEnable v => exact lineEnable_keeps (fun n t _ ht => ht.congr (by simp) (by simp)) v s h
  case lineDisable v =>
    refine lineDisable_keeps (fun n t _ ht => ?_) v s h
    obtain ⟨-, -, -, -, -, -, -, -, hhost⟩ := disableLine_rest n t
    rw [hostBlockLaw_iff, hhost]
    split
    · exact HostBlock.Bounded.disabled _
    · exact ht.congr (t := (disableLine n t).withHost t.host) rfl (by simp)
  case lineRestart v =>
    refine lineRestart_keeps (fun n t _ ht => ?_) v s h
    obtain ⟨-, -, -, -, -, -, -, -, hhost⟩ := restartLine_rest n t
    rw [hostBlockLaw_iff, hhost]
    split
    · exact HostBlock.Bounded.clearInsert ht _
    · exact ht.congr (t := (restartLine n t).withHost t.host) rfl (by simp)
  case fgStop v => exact fgStop_keeps (fun n g t _ _ ht => ht.congr (by simp) (by simp)) (fun g t ht => ht) v s h
  case lineRelease v => exact h.congr (by simp [Machine.takeHeld, lineRelease]) (by simp [Machine.takeHeld, lineRelease])
  case groupRelease v => exact h.congr (by simp [Machine.takeHeld, groupRelease]) (by simp [Machine.takeHeld, groupRelease])
  case tpWrite =>
    have effect := tpWrite_effect s
    change HostBlockLaw (tpWrite s)
    generalize tpWrite s = t at effect ⊢
    cases effect with
    | refused => exact h.congr (by simp) (by simp)
    | claims => exact h.congr rfl rfl
    | config n c hc hlive => exact (h.writeConfig (n := n) (c := c)).congr (by simp) (by simp)
  case insertDataWrite v => exact h.insertDataWrite
  case submit => exact h.submit
  case discard =>
    obtain ⟨-, hp, hcap, hread⟩ := h
    exact ⟨Nat.zero_le _, hp, hcap, hread⟩
  case captureDataRead => exact h.captureDataRead
  case capturePop v => exact h.capturePop
  all_goals exact hostBlockLaw_restsOn.keep (takeHeld_onlyChanges _ _) h

theorem kept : Kept HostBlockLaw :=
  keptByLineEvents.kept hostBlockLaw_restsOn
    (bit := fun n b s h => hostBlockLaw_restsOn.keep (bitClock_onlyChanges n b s) h)
    (reset := HostBlock.Bounded.of_all_empty rfl rfl rfl rfl _)
    (grant := fun s h => hostBlockLaw_restsOn.keep (arbiterGrant_onlyChanges s) h)
    (load := fun s h => h.congr (by simp) (by simp [loadComplete_config]))
    (copyStep := fun s h => hostBlockLaw_restsOn.keep (copyStepComplete_onlyChanges s) h)
    (mapRead := fun e s _ h => hostBlockLaw_restsOn.keep (finishMapRead_onlyChanges e s) h)
    (mapWrite := fun e s _ h => hostBlockLaw_restsOn.keep (finishMapWrite_onlyChanges e s) h)
    (timeOut := fun s h => hostBlockLaw_restsOn.keep (timeOut_onlyChanges s) h)
    (access := fun c _ _ h => h.takeHeld c)

end HostBlockLaw

/-- Settles O58: a word, a frame or a step of the read index is taken only where the collection has room for it, and a slot
count of the host line changes with nothing composed and nothing pending. -/
theorem hostBlockStaysWithinBounds : Obligations.HostBlockStaysWithinBounds :=
  fun _ _ h hstep => HostBlockLaw.kept.step h hstep

end Sys2Proof.Machine
end

section
set_option Elab.async false -- one proof after the other, within the check's limit on threads
/-! Causes and damage windows after each operation of the lines. -/

namespace Sys2Proof.Machine

/-! ### Causes (R152, R154) -/

theorem CauseSet.add_of_has {c : CauseSet} {k : Cause} (h : c.has k = true) : c.add k = c := by
  obtain ⟨lost, degraded, group⟩ := c
  cases k <;> simp_all [CauseSet.has, CauseSet.add]

@[simp] theorem CauseSet.own_add_group (c : CauseSet) : (c.add .group).own = c.own := rfl

/-- Every cause set after an own cause has been added: the others of the group gain GROUP under ISOLATE_GROUP, where the cause is
a new one. -/
theorem addOwnCause_causes (n m : Line) (c : Cause) (s : State) : (addOwnCause n c s).causes.get m
    = if m = n then (s.causes.get n).add c
      else if (s.causes.get n).has c = false ∧ s.policyOf n = .isolateGroup ∧ s.groupOf m = s.groupOf n then
        (s.causes.get m).add .group
      else s.causes.get m := by
  unfold addOwnCause
  split
  · next hhas =>
    rw [CauseSet.add_of_has hhas]
    by_cases hm : m = n
    · simp [hm]
    · simp [hm, hhas]
  · next hhas =>
    have hhas : (s.causes.get n).has c = false := by simpa using hhas
    split
    · next hp =>
      rw [giveGroup_causes]
      by_cases hm : m = n
      · simp [hm, State.otherMember, addCause_causes]
      · simp [hm, hhas, hp, State.otherMember, addCause_causes]
    · next hp =>
      rw [addCause_causes]
      by_cases hm : m = n
      · simp [hm]
      · simp [hm, hp]

theorem groupOf_congr {s t : State} (hl : ∀ m, (t.lines.get m).config = (s.lines.get m).config) (n : Line) :
    t.groupOf n = s.groupOf n := by
  simp [State.groupOf, hl]

theorem policyOf_congr {s t : State} (hp : t.policies = s.policies)
    (hl : ∀ m, (t.lines.get m).config = (s.lines.get m).config) (n : Line) : t.policyOf n = s.policyOf n := by
  simp [State.policyOf, groupOf_congr hl, hp]

/-- What an own cause adds rests on the causes, the policies and the groups. -/
theorem addOwnCause_causes_congr {s t : State} (hc : t.causes = s.causes) (hp : t.policies = s.policies)
    (hl : ∀ m, (t.lines.get m).config = (s.lines.get m).config) (n m : Line) (c : Cause) :
    (addOwnCause n c t).causes.get m = (addOwnCause n c s).causes.get m := by
  rw [addOwnCause_causes, addOwnCause_causes, hc]
  exact if_congr Iff.rfl rfl (if_congr (by rw [policyOf_congr hp hl, groupOf_congr hl, groupOf_congr hl]) rfl rfl)

/-- An own cause of one line makes no other line hold an own cause. -/
theorem addOwnCause_own {n m : Line} (h : m ≠ n) (c : Cause) (s : State) :
    ((addOwnCause n c s).causes.get m).own = (s.causes.get m).own := by
  rw [addOwnCause_causes, if_neg h]; split <;> simp

/-- GROUP is no own cause. -/
@[simp] theorem giveGroup_own (g : Line → Bool) (m : Line) (s : State) :
    ((giveGroup g s).causes.get m).own = (s.causes.get m).own := by
  rw [giveGroup_causes]; split <;> simp

theorem reportLost_causes (n m : Line) (s : State) :
    (reportLost n s).causes.get m = (addOwnCause n .lost s).causes.get m := by
  exact addOwnCause_causes_congr (by simp) (by simp) (by simp) ..

/-- Every cause set after a loss of sync. -/
theorem enterLost_causes (n m : Line) (tx : Bool) (s : State) :
    (enterLost n tx s).causes.get m = (addOwnCause n .lost s).causes.get m := by
  unfold enterLost; dsimp only
  split
  all_goals
    simp only [receiveStop_frame, transmitStop_frame, reportLost_causes]
    exact addOwnCause_causes_congr (by simp) (by simp) (by simp) ..

/-- Every cause set after a damage window has counted a frame. -/
theorem advanceWindow_causes (n m : Line) (damaged : Bool) (s : State) : (advanceWindow n damaged s).causes.get m
    = if ((s.windows.get n).advance damaged).reaches (s.lines.get n).config.damageThreshold then
        (addOwnCause n .degraded s).causes.get m
      else s.causes.get m := by
  unfold advanceWindow; dsimp only
  split
  · exact addOwnCause_causes_congr (by simp) (by simp) (by simp) ..
  · simp

/-- What a frame that completes finds when its window counts it: the windows, the causes, the records and the policies of
before. -/
theorem completed_frame (n : Line) (v : Verdict) (frame : List Word) (s : State) :
    let t := acquire n (modifyStore n (fun st => st.complete v.damaged frame) (report n v s))
    t.windows = s.windows ∧ t.causes = s.causes ∧ t.policies = s.policies
      ∧ ∀ m, (t.lines.get m).config = (s.lines.get m).config := by
  simp

theorem receiveBoundary_own {n m : Line} (h : m ≠ n) (frame : List Word) (short : Bool) (s : State) :
    ((receiveBoundary n frame short s).causes.get m).own = (s.causes.get m).own := by
  unfold receiveBoundary; split
  · dsimp only; rw [advanceWindow_causes]; split
    · rw [addOwnCause_own h]; simp
    · simp
  · simp

/-! ### Damage windows (R148, R150) -/

/-- The damage window of the line after a boundary at its receive side. -/
theorem receiveBoundary_window (n : Line) (frame : List Word) (short : Bool) (s : State) :
    (receiveBoundary n frame short s).windows.get n = if (s.stores.get n).receiving then
      (let w := (s.windows.get n).advance (judge (s.lines.get n) frame short).damaged
       if w.reaches (s.lines.get n).config.damageThreshold then ({ w with reported := true } : Window).close else w.close)
      else s.windows.get n := by
  unfold receiveBoundary; split
  · dsimp only; rw [advanceWindow_windows]; simp
  · simp

/-- Every damage window after a line has stopped if it ran. -/
theorem stopIfRunning_windows (n m : Line) (s : State) : (stopIfRunning n s).windows.get m
    = if m = n ∧ s.running n = true then .reset else s.windows.get m := by
  unfold stopIfRunning; split
  · next hr =>
    by_cases hm : m = n
    · subst hm; simp [hr, (stopLine_stopped m s).window]
    · obtain ⟨-, -, -, -, hw, -⟩ := stopLine_other hm s; simp [hm, hw]
  · next hr => simp [hr]

/-- Every damage window after a loss of sync. -/
theorem enterLost_windows (n m : Line) (tx : Bool) (s : State) :
    (enterLost n tx s).windows.get m = if m = n then .reset else s.windows.get m := by
  split
  · next h => subst h; exact (enterLost_stopped m tx s).window
  · next h => exact (enterLost_rest n m tx s).2.2.2.1 h

/-! ### Slips counted (R65) -/

/-- A completed load counts slips of its own line and nothing else. -/
theorem loadComplete_counter (s : State) (m : Line) (j : Fin 8) (h4 : j ≠ REPEAT_SLIPS) (h5 : j ≠ DROP_SLIPS) :
    (loadComplete s).counter m j = s.counter m j := by
  have selection : ∀ y program (u : State), (selectSources y program u).counter m j = u.counter m j := by
    intro y program u
    rw [selectSources_eq]
    exact foldl_keeps (fun t => t.counter m j) _
      (fun t x => by rw [reportSlip_counter]; simp [h4, h5]) _ _
  unfold loadComplete; split
  · next y program live _ =>
    split
    · rw [counter_congr (s := selectSources y program (freePort s)) (by simp), selection]; rfl
    · rfl
  all_goals rfl

/-- A record that is read zeroes the counter that it shows, or none (R147). -/
theorem readRecord_counter (s : State) (m : Line) (k : Fin 8) :
    (readRecord s).counter m k = s.counter m k ∨ (readRecord s).counter m k = 0 := by
  have counter : ∀ n j, (readCounter n j s).counter m k = s.counter m k ∨ (readCounter n j s).counter m k = 0 := by
    intro n j
    unfold readCounter; dsimp only; split
    · simp only [State.counter, State.withCounters_counters, Tab.get_put]; split
      · next hm =>
        subst hm; rw [Tab.get_put]; split
        · exact .inr rfl
        · exact .inl rfl
      · exact .inl rfl
    · exact .inl rfl
  unfold readRecord; dsimp only; split
  · split <;> exact .inl rfl
  split
  · split <;> exact .inl rfl
  split
  · exact counter _ _
  · exact .inl rfl

end Sys2Proof.Machine
end

section
set_option Elab.async false -- one proof after the other, within the check's limit on threads
/-! The counters and causes of the host line, and the damage windows (R145, R148, R162): the settling of obligation O59. -/

namespace Sys2Proof.Machine

/-! ### The host line -/

/-- The counters of the frame check, which the host line has not (R145). -/
def checkCounters : List (Fin 8) := [CHECK_ERRORS, SEQ_GAPS, DAMAGED_FRAMES]

theorem hostSupervisionLaw_iff (s : State) : HostSupervisionLaw s ↔
    (∀ k ∈ checkCounters, s.counter hostLine k = 0) ∧ (s.causes.get hostLine).own = false := by
  simp [HostSupervisionLaw, checkCounters, and_assoc]

namespace HostSupervisionLaw

theorem congr {s t : State} (h : HostSupervisionLaw s)
    (hk : ∀ k ∈ checkCounters, t.counter hostLine k = s.counter hostLine k)
    (ho : (t.causes.get hostLine).own = (s.causes.get hostLine).own) : HostSupervisionLaw t := by
  rw [hostSupervisionLaw_iff] at h ⊢
  exact ⟨fun k hm => (hk k hm).trans (h.1 k hm), ho.trans h.2⟩

/-- What leaves the counters and the own causes leaves the law. -/
theorem ofCounters {s t : State} (h : HostSupervisionLaw s) (hk : t.counters = s.counters)
    (ho : (t.causes.get hostLine).own = (s.causes.get hostLine).own) : HostSupervisionLaw t :=
  h.congr (fun _ _ => counter_congr hk ..) ho

theorem hostBoundary {s : State} (h : HostSupervisionLaw s) : HostSupervisionLaw (hostBoundary s) := by
  refine h.congr (fun k hk => ?_) (by simp)
  have hne : k ≠ OVERRUNS ∧ k ≠ INSERT_UNDERRUNS ∧ k ≠ CAPTURE_OVERFLOWS := by
    revert k; decide
  rw [Machine.hostBoundary, deliverCapture_counter, if_neg (by simp [hne]), handOver_counter]
  split <;> simp [hne]

theorem keptByLineEvents : KeptByLineEvents HostSupervisionLaw where
  count n s h := by
    refine h.congr (fun k hk => ?_) (by simp)
    rw [countUp_counter, if_neg (fun hc => physLine_ne_host n hc.1.symm)]
  begins n s h := h.ofCounters (by simp) (by simp)
  verifies p k s _ _ _ _ h := h
  hunts p s _ h := h.ofCounters (by simp) (by simp)
  loses p tx s _ _ h := by
    have hne : hostLine ≠ p.line := (physLine_ne_host p).symm
    refine h.congr (fun k hk => ?_) (by rw [enterLost_causes, addOwnCause_own hne])
    obtain ⟨-, hcount, -⟩ := enterLost_rest p.line hostLine tx s
    rw [hcount, if_neg (fun hc => hne hc.1)]
  locks n s _ h := h.ofCounters (by simp) (by simp)
  rearms p e s _ _ _ h := h.ofCounters (by simp) (by simp)
  receives p frame short s _ h :=
    have hne : hostLine ≠ p.line := (physLine_ne_host p).symm
    h.congr (fun k _ => receiveBoundary_counter_ne _ _ hne _ _ _ _) (receiveBoundary_own hne ..)
  transmits n s _ h := h.ofCounters (by simp) (by simp)
  hostBounds s _ h := h.hostBoundary
  starts g k s h := h

end HostSupervisionLaw

/-! ### The damage windows -/

/-- A window between two completions. -/
def Window.Open (w : Window) : Prop := w.frames < Config.windowFrames ∧ w.damaged ≤ w.frames

theorem Window.open_reset : Window.reset.Open := by simp [Window.Open, Window.reset, Config.windowFrames]

/-- A window that has counted one more frame, with or without its report, is open once it has closed after 256 frames. -/
theorem Window.open_close {w v : Window} (h : w.Open) (damaged : Bool) (hf : v.frames = w.frames + 1)
    (hd : v.damaged = w.damaged + damaged.toNat) : v.close.Open := by
  obtain ⟨hframes, hdamaged⟩ := h
  have hone : damaged.toNat ≤ 1 := Bool.toNat_le damaged
  unfold Window.close; split
  · exact open_reset
  · next hne => exact ⟨by omega, by omega⟩

namespace WindowLaw

theorem congr {s t : State} (h : WindowLaw s) (hw : ∀ n, t.windows.get n = s.windows.get n ∨ t.windows.get n = .reset) :
    WindowLaw t := by
  intro n
  obtain he | he := hw n <;> rw [he]
  · exact h n
  · exact Window.open_reset

theorem ofWindows {s t : State} (h : WindowLaw s) (hw : t.windows = s.windows) : WindowLaw t :=
  h.congr fun n => .inl (by rw [hw])

theorem receiveBoundary {s : State} (h : WindowLaw s) (n : Line) (frame : List Word) (short : Bool) :
    WindowLaw (receiveBoundary n frame short s) := by
  intro m
  by_cases hm : m = n
  · subst hm
    rw [receiveBoundary_window]; split
    · dsimp only; split
      · exact Window.open_close (h m) _ rfl rfl
      · exact Window.open_close (h m) _ rfl rfl
    · exact h m
  · rw [receiveBoundary_windows n m hm]; exact h m

theorem keptByLineEvents : KeptByLineEvents WindowLaw where
  count n s h := h.ofWindows (by simp)
  begins n s h := h.ofWindows (by simp)
  verifies p k s _ _ _ _ h := h
  hunts p s _ h := h.ofWindows (by simp)
  loses p tx s _ _ h := by
    refine h.congr fun m => ?_
    rw [enterLost_windows]; split
    · exact .inr rfl
    · exact .inl rfl
  locks n s _ h := h.ofWindows (by simp)
  rearms p e s _ _ _ h := h.ofWindows (by simp)
  receives p frame short s _ h := h.receiveBoundary _ _ _
  transmits n s _ h := h.ofWindows (by simp)
  hostBounds s _ h := h.ofWindows (by simp)
  starts g k s h := h

end WindowLaw

/-! ### Both laws -/

/-- The law of the host line's supervision and that of the damage windows. -/
def SupervisionLaw (s : State) : Prop := HostSupervisionLaw s ∧ WindowLaw s

theorem supervisionLaw_restsOn : RestsOn SupervisionLaw [.counters, .causes, .windows] := by
  intro s t h hs
  have hk : t.counters = s.counters := h .counters (by simp)
  have hc : t.causes = s.causes := h .causes (by simp)
  exact ⟨hs.1.ofCounters hk (by rw [hc]), hs.2.ofWindows (h .windows (by simp))⟩

namespace SupervisionLaw

theorem stopIfRunning_window (n m : Line) (s : State) :
    (stopIfRunning n s).windows.get m = s.windows.get m ∨ (stopIfRunning n s).windows.get m = .reset := by
  rw [stopIfRunning_windows]; split
  · exact .inr rfl
  · exact .inl rfl

theorem takeHeld (c : Instr) {s : State} (h : SupervisionLaw s) : SupervisionLaw (takeHeld c s) := by
  cases c
  case exchangeRestart =>
    refine ⟨?_, h.2.congr fun n => .inr (by simp [Machine.takeHeld, exchangeRestart])⟩
    simp [HostSupervisionLaw, Machine.takeHeld, exchangeRestart, State.counter, CauseSet.empty, CauseSet.own]
  case lineDisable v =>
    refine lineDisable_keeps (fun n t _ ht => ?_) v s h
    obtain ⟨-, -, hw, -⟩ := disableLine_rest n t
    exact ⟨ht.1.ofCounters (by simp) (by simp), ht.2.congr fun m => by rw [hw]; exact stopIfRunning_window n m t⟩
  case lineRestart v =>
    refine lineRestart_keeps (fun n t _ ht => ?_) v s h
    obtain ⟨-, -, hw, -⟩ := restartLine_rest n t
    refine ⟨ht.1.ofCounters (by simp) (by simp), ht.2.congr fun m => ?_⟩
    rw [hw, Tab.get_put]; split
    · exact .inr rfl
    · exact stopIfRunning_window n m t
  case fgStop v =>
    refine fgStop_keeps (fun n g t _ _ ht => ?_) (fun g t ht => ht) v s h
    obtain ⟨-, hw, -⟩ := haltLine_rest n t
    exact ⟨ht.1.ofCounters (by simp) (by simp), ht.2.congr fun m => by rw [hw]; exact stopIfRunning_window n m t⟩
  case groupPolicyWrite v =>
    refine ⟨h.1.ofCounters (by simp [Machine.takeHeld]) ?_, h.2.ofWindows (by simp [Machine.takeHeld])⟩
    simp only [Machine.takeHeld, groupPolicyWrite, giveGroup_own]
    rw [foldl_keeps State.causes _ (fun t n => by split <;> simp)]; rfl
  case lineRelease v | groupRelease v =>
    simp only [Machine.takeHeld, lineRelease, groupRelease]
    refine ⟨h.1.congr (fun k _ => counter_congr (by simp) ..) ?_, h.2.ofWindows (by simp)⟩
    rw [h.1.2.2.2, (releaseLines_spec _ _ _).2]
    split
    · split <;> rfl
    · exact h.1.2.2.2
  case tpRead =>
    have effect := tpRead_effect s
    change SupervisionLaw (tpRead s)
    generalize tpRead s = t at effect ⊢
    cases effect with
    | refused | claims => exact supervisionLaw_restsOn s _ (by simp [Field.same]) h
    | reads =>
      refine ⟨?_, h.2.ofWindows (by simp)⟩
      have hl := (hostSupervisionLaw_iff s).mp h.1
      refine (hostSupervisionLaw_iff _).mpr ⟨fun k hk => ?_, by simpa using hl.2⟩
      rw [counter_congr (s := readRecord s) (by simp)]
      obtain he | he := readRecord_counter s hostLine k
      · rw [he]; exact hl.1 k hk
      · exact he
  case tpWrite =>
    have effect := tpWrite_effect s
    change SupervisionLaw (tpWrite s)
    generalize tpWrite s = t at effect ⊢
    cases effect with
    | refused | claims => exact supervisionLaw_restsOn s _ (by simp [Field.same]) h
    | config n c _ _ =>
      refine ⟨h.1.ofCounters (by simp) ?_, h.2.ofWindows (by simp)⟩
      simp only [tpEnd_frame, writeConfig]
      split <;> split <;> simp [moveGroup]
  all_goals exact supervisionLaw_restsOn.keep (takeHeld_onlyChanges _ _) h

theorem keptByLineEvents : KeptByLineEvents SupervisionLaw :=
  HostSupervisionLaw.keptByLineEvents.and WindowLaw.keptByLineEvents

theorem kept : Kept SupervisionLaw :=
  keptByLineEvents.kept supervisionLaw_restsOn
    (bit := fun n b s h => supervisionLaw_restsOn.keep (bitClock_onlyChanges n b s) h)
    (reset := ⟨by unfold HostSupervisionLaw; decide, fun n => by
      simp only [State.reset, Tab.get_all]; exact Window.open_reset⟩)
    (grant := fun s h => supervisionLaw_restsOn.keep (arbiterGrant_onlyChanges s) h)
    (load := fun s h => ⟨h.1.congr (fun k hk => by
      have hne : k ≠ REPEAT_SLIPS ∧ k ≠ DROP_SLIPS := by revert k; decide
      exact loadComplete_counter s _ _ hne.1 hne.2) (by simp), h.2.ofWindows (by simp)⟩)
    (copyStep := fun s h => supervisionLaw_restsOn.keep (copyStepComplete_onlyChanges s) h)
    (mapRead := fun e s _ h => supervisionLaw_restsOn.keep (finishMapRead_onlyChanges e s) h)
    (mapWrite := fun e s _ h => supervisionLaw_restsOn.keep (finishMapWrite_onlyChanges e s) h)
    (timeOut := fun s h => supervisionLaw_restsOn.keep (timeOut_onlyChanges s) h)
    (access := fun c _ _ h => h.takeHeld c)

end SupervisionLaw

/-- Settles O59: the checks of a receive frame and the own causes belong to the physical lines, and a window closes after 256
frames. -/
theorem supervisionOfHostLineAndWindows : Obligations.SupervisionOfHostLineAndWindows :=
  fun _ _ h hstep => SupervisionLaw.kept.step h hstep

end Sys2Proof.Machine
end

section
set_option Elab.async false -- one proof after the other, within the check's limit on threads
/-! What the operations of the lines send: a property of the event queue and the interrupt block that every event and a
completed commit keep is kept by all of them. -/

namespace Sys2Proof.Machine

/-- A property of the event queue and the interrupt block that the sending of an event of the given kinds keeps. -/
structure KeptByReports (kinds : EventKind → Bool) (P : State → Prop) : Prop where
  rests : RestsOn P [.evq, .irq]
  append : ∀ r s, kinds r.kind = true → P s → P (appendRecord r s)

/-- An event that is no slip (Table 10-1). -/
def EventKind.noSlip (k : EventKind) : Bool := k != .slipRepeat && k != .slipDrop

/-- A property of the event queue and the interrupt block that the sending of an event keeps, whatever it is but a slip, and the
status bit of a completed commit. -/
structure KeptBySends (P : State → Prop) : Prop where
  reports : KeptByReports EventKind.noSlip P
  commitDone : ∀ s, P s → P (s.withIrq { s.irq with commitDone := true })

namespace KeptByReports

variable {kinds : EventKind → Bool} {P : State → Prop} (k : KeptByReports kinds P)
include k

/-- What leaves the queue and the interrupt block leaves the property. -/
theorem same {s t : State} (h : P s) (hq : t.evq = s.evq := by simp) (hi : t.irq = s.irq := by simp) : P t := by
  refine k.rests s t (fun f hf => ?_) h
  simp only [List.mem_cons, List.not_mem_nil, or_false] at hf
  obtain rfl | rfl := hf
  · exact hq
  · exact hi

theorem sendEvent {kind : EventKind} (hk : kinds kind = true) (n : Line) (d : Word) {s : State} (h : P s) :
    P (sendEvent kind n d s) :=
  k.append _ _ hk h

theorem sendBankEvent {kind : EventKind} (hk : kinds kind = true) (d : Word) {s : State} (h : P s) :
    P (sendBankEvent kind d s) :=
  k.append _ _ hk h

/-! ### Causes -/

theorem addCause (hf : kinds .fault = true) (n : Line) (c : Cause) {s : State} (h : P s) : P (addCause n c s) := by
  unfold Machine.addCause; split
  · exact h
  · have added : P (s.withCauses (s.causes.put n ((s.causes.get n).add c))) := k.same h
    exact k.same (k.sendEvent hf n c.code added)

theorem giveGroup (hf : kinds .fault = true) (g : Line → Bool) {s : State} (h : P s) : P (giveGroup g s) :=
  foldl_invariant P _ (fun t n ht => by
    split
    · exact k.addCause hf n .group ht
    · exact ht) _ _ h

theorem addOwnCause (hf : kinds .fault = true) (n : Line) (c : Cause) {s : State} (h : P s) : P (addOwnCause n c s) := by
  unfold Machine.addOwnCause; split
  · exact h
  split
  · exact k.giveGroup hf _ (k.addCause hf n c h)
  · exact k.addCause hf n c h

theorem releaseLine (hr : kinds .release = true) (n : Line) {s : State} (h : P s) : P (releaseLine n s) :=
  k.sendEvent hr n 0 (k.same h)

theorem releaseLines (hr : kinds .release = true) (hf : kinds .fault = true) (named : Line → Bool) {s : State} (h : P s) : P (releaseLines named s) :=
  k.giveGroup hf _ (foldl_invariant P _ (fun t n ht => by
    split
    · exact k.releaseLine hr n ht
    · exact ht) _ _ h)

theorem moveGroup (hf : kinds .fault = true) (n : Line) {s : State} (h : P s) : P (moveGroup n s) :=
  k.giveGroup hf _ (k.same h)

theorem writeConfig (hf : kinds .fault = true) (n : Line) (c : LineConfig) {s : State} (h : P s) : P (writeConfig n c s) := by
  have moved : ∀ u, P u → P (if c.group ≠ (s.lines.get n).config.group then Machine.moveGroup n u else u) := by
    intro u hu; split
    · exact k.moveGroup hf n hu
    · exact hu
  refine moved _ ?_
  split <;> exact k.same h

theorem groupPolicyWrite (hf : kinds .fault = true) (v : Word) {s : State} (h : P s) : P (groupPolicyWrite v s) :=
  k.giveGroup hf _ (foldl_invariant P _ (fun t n ht => by
    split
    · exact k.same ht
    · exact ht) _ _ (k.same (t := s.withPolicies _) h))

/-! ### Boundaries -/

theorem overrun (ho : kinds .overrun = true) (n : Line) {s : State} (h : P s) : P (overrun n s) := by
  unfold Machine.overrun; dsimp only; split
  · exact k.same (k.same (t := countUp n OVERRUNS s) h)
  · exact k.same (k.sendEvent ho n 0 (k.same (t := countUp n OVERRUNS s) h))

theorem acquire (ho : kinds .overrun = true) (n : Line) {s : State} (h : P s) : P (acquire n s) := by
  unfold Machine.acquire; split
  · exact k.same h
  · exact k.same (k.overrun ho n h)

theorem advanceWindow (hf : kinds .fault = true) (n : Line) (d : Bool) {s : State} (h : P s) : P (advanceWindow n d s) := by
  unfold Machine.advanceWindow; dsimp only; split
  · exact k.addOwnCause hf n .degraded (k.same (t := s.withWindows _) h)
  · exact k.same h

theorem receiveBoundary (ho : kinds .overrun = true) (hf : kinds .fault = true) (n : Line) (frame : List Word) (short : Bool) {s : State} (h : P s) :
    P (receiveBoundary n frame short s) := by
  unfold Machine.receiveBoundary; split
  · refine k.advanceWindow hf n _ (k.acquire ho n (k.same h ?_ ?_)) <;> simp
  · exact k.acquire ho n h

theorem reportLost (hs : kinds .sync = true) (hf : kinds .fault = true) (n : Line) {s : State} (h : P s) : P (reportLost n s) :=
  k.addOwnCause hf n .lost (k.sendEvent hs n 4 h)

theorem lock (hs : kinds .sync = true) (n : Line) {s : State} (h : P s) : P (lock n s) := by
  unfold Machine.lock; dsimp only; split
  · exact k.same h
  · exact k.sendEvent hs n 3 (k.same (t := s.withLines _) h)

/-! ### The host line block -/

theorem appendCapture (hc : kinds .captureOverflow = true) (c : CapturedFrame) {s : State} (h : P s) : P (appendCapture c s) := by
  unfold Machine.appendCapture; split
  · exact k.same h
  dsimp only; split
  · exact k.same (k.same (t := countUp hostLine CAPTURE_OVERFLOWS s) h)
  · exact k.same (k.sendEvent hc hostLine 0
      (k.same (t := countUp hostLine CAPTURE_OVERFLOWS s) h))

theorem handOver (ho : kinds .overrun = true) (hi : kinds .insertUnderrun = true) {s : State} (h : P s) : P (handOver s) := by
  unfold Machine.handOver; split
  · unfold placeInsert; split
    · exact k.same h
    · have consumed : P (s.withHost { s.host with insertPending := none, underrunArmed := true }) := k.same h
      exact k.same (k.overrun ho hostLine consumed)
  dsimp only; split
  · exact k.same (k.sendEvent hi hostLine 0
      (k.same (t := countUp hostLine INSERT_UNDERRUNS s) h))
  · exact k.same h

theorem hostBoundary (ho : kinds .overrun = true) (hi : kinds .insertUnderrun = true) (hc : kinds .captureOverflow = true) {s : State} (h : P s) : P (hostBoundary s) := by
  have handed := k.handOver ho hi h
  unfold Machine.hostBoundary deliverCapture; dsimp only; split
  · exact k.appendCapture hc _ (k.same (t := (Machine.handOver s).withTxas _) handed)
  · exact k.same handed

end KeptByReports

namespace KeptBySends

variable {P : State → Prop} (k : KeptBySends P)
include k

/-- What leaves the queue and the interrupt block leaves the property. -/
theorem same {s t : State} (h : P s) (hq : t.evq = s.evq := by simp) (hi : t.irq = s.irq := by simp) : P t :=
  k.reports.same h hq hi

/-! ### Adoption -/

theorem completeCommit {s : State} (h : P s) : P (completeCommit s) :=
  k.commitDone _ (k.reports.sendBankEvent (kind := .commitDone) rfl _ (k.same (t := s.withBc _) h))

theorem adopt (n : Line) {s : State} (h : P s) : P (adopt n s) := by
  unfold Machine.adopt; split
  · dsimp only; split
    · exact k.completeCommit (k.same (t := s.withBc _) h)
    · exact k.same h
  · exact h

theorem commit {s : State} (h : P s) : P (commit s) := by
  unfold Machine.commit acceptCommit; dsimp only
  split
  · exact k.same h
  split
  · exact k.same h
  split
  · exact k.completeCommit (k.same (t := s.withBc _) h)
  · exact k.same h

/-! ### Stops and boundaries -/

theorem transmitStop (n : Line) {s : State} (h : P s) : P (transmitStop n s) := by
  refine k.same (k.adopt n (k.same (t := dropHolds n s) h)) ?_ ?_ <;> simp [Machine.transmitStop]

theorem stopLine (n : Line) {s : State} (h : P s) : P (stopLine n s) := k.transmitStop n (k.same h)

theorem stopIfRunning (n : Line) {s : State} (h : P s) : P (stopIfRunning n s) := by
  unfold Machine.stopIfRunning; split
  · exact k.stopLine n h
  · exact h

theorem haltLine (n : Line) {s : State} (h : P s) : P (haltLine n s) :=
  k.same (t := enterReceiver n .hunt (Machine.stopIfRunning n s)) (k.stopIfRunning n h)

theorem disableLine (n : Line) {s : State} (h : P s) : P (disableLine n s) := by
  obtain ⟨-, -, -, -, -, -, hq, hi, -⟩ := disableLine_rest n s
  exact k.same (k.stopIfRunning n h) hq hi

theorem restartLine (n : Line) {s : State} (h : P s) : P (restartLine n s) := by
  obtain ⟨-, -, -, -, -, -, hq, hi, -⟩ := restartLine_rest n s
  exact k.same (k.stopIfRunning n h) hq hi

theorem transmitBoundary (n : Line) {s : State} (h : P s) : P (transmitBoundary n s) := by
  refine k.same (k.adopt n (k.same (t := releaseHolds n s) h)) ?_ ?_ <;> simp [Machine.transmitBoundary]

theorem enterLost (n : Line) (tx : Bool) {s : State} (h : P s) : P (enterLost n tx s) := by
  unfold Machine.enterLost; dsimp only; split
  · have stopped := k.transmitStop n (k.same (t := enterReceiver n .lost (countUp n SYNC_LOSSES s)) h)
    exact k.same (k.reports.reportLost rfl rfl n stopped)
  · have reported := k.reports.reportLost rfl rfl n (k.same (t := enterReceiver n .lost (countUp n SYNC_LOSSES s)) h)
    exact k.transmitStop n (k.same (t := receiveStop n _) reported)

/-! ### The events of the lines' timing -/

theorem keptByLineEvents : KeptByLineEvents P where
  count n s h := k.same h
  begins n s h := k.same h
  verifies p c s _ _ _ _ h := k.same h rfl rfl
  hunts p s _ h := k.same h
  loses p tx s _ _ h := k.enterLost _ _ h
  locks n s _ h := k.reports.lock rfl n h
  rearms p e s _ _ _ h := k.same h
  receives p frame short s _ h := k.reports.receiveBoundary rfl rfl _ _ _ h
  transmits n s _ h := k.transmitBoundary n h
  hostBounds s _ h := k.reports.hostBoundary rfl rfl rfl h
  starts g c s h := k.same h

end KeptBySends

end Sys2Proof.Machine
end

section
set_option Elab.async false -- one proof after the other, within the check's limit on threads
/-! The event queue within its capacity, with no two slip records of one kind and pair (R163, R166): the settling of obligation
O57. -/

namespace Sys2Proof.Machine

namespace EventQueueLaw

theorem ofRecords {s t : State} (h : EventQueueLaw s) (hr : t.evq.records = s.evq.records := by simp) :
    EventQueueLaw t := by
  unfold EventQueueLaw at h ⊢; rwa [hr]

/-- A record that no slip record of the list agrees with may be taken. -/
theorem append {r : EventRecord} {s : State} (h : EventQueueLaw s) (hr : ∀ q ∈ s.evq.records, ¬ q.sameSlip r) :
    EventQueueLaw (appendRecord r s) := by
  unfold appendRecord; split
  · next hroom =>
    obtain ⟨-, hpair⟩ := h
    refine ⟨by simpa using Nat.succ_le_of_lt hroom, List.pairwise_append.mpr ⟨hpair, List.pairwise_singleton _ _, ?_⟩⟩
    intro q hq p hp
    rw [List.mem_singleton.mp hp]; exact hr q hq
  · exact h

theorem isSlip_of_noSlip {r : EventRecord} (h : r.kind.noSlip = true) : r.isSlip = false := by
  simp only [EventKind.noSlip, EventRecord.isSlip] at h ⊢
  cases hk : r.kind <;> simp_all

theorem not_sameSlip {q r : EventRecord} (hr : r.isSlip = false) : ¬ q.sameSlip r := by
  rintro ⟨hslip, hkind, -⟩
  simp only [EventRecord.isSlip, hkind] at hslip hr
  simp [hr] at hslip

/-- A slip event merges into the record of its kind and pair, and where it finds none its own record may be taken. -/
theorem sendSlip (kind : EventKind) (y x : Line) (k : Nat) {s : State}
    (h : EventQueueLaw s) : EventQueueLaw (sendSlip kind y x k s) := by
  unfold Machine.sendSlip; split
  · obtain ⟨hlen, hpair⟩ := h
    refine ⟨by simpa using hlen, List.pairwise_map.mpr (hpair.imp fun {a b} hne => ?_)⟩
    have same : ∀ r : EventRecord, (if r.isSlipOf kind y x then r.merge k else r).kind = r.kind
        ∧ (if r.isSlipOf kind y x then r.merge k else r).lineA = r.lineA
        ∧ (if r.isSlipOf kind y x then r.merge k else r).lineB = r.lineB := by
      intro r; split <;> exact ⟨rfl, rfl, rfl⟩
    simpa only [EventRecord.sameSlip, EventRecord.isSlip, same] using hne
  · next hnone =>
    refine h.append fun q hq hsame => hnone (List.any_eq_true.mpr ⟨q, hq, ?_⟩)
    obtain ⟨-, hkind, hA, hB⟩ := hsame
    simp [EventRecord.isSlipOf, hkind, hA, hB]

theorem restsOn : RestsOn EventQueueLaw [.evq] :=
  fun _ _ h hs => hs.ofRecords (congrArg EventQueue.records (h .evq (by simp)))

theorem keptBySends : KeptBySends EventQueueLaw where
  reports :=
    { rests := fun s t h hs => restsOn s t (fun f hf => h f (by simp_all)) hs
      append := fun r s hr h => h.append fun _ _ => not_sameSlip (isSlip_of_noSlip hr) }
  commitDone _ h := h

/-! ### The events of the lines' timing send no slip -/

/-- The list holds no slip record. -/
def NoSlips (s : State) : Prop := ∀ r ∈ s.evq.records, r.isSlip = false

theorem NoSlips.keptBySends : KeptBySends NoSlips where
  reports :=
    { rests := fun s t h hs => by
        have hq : t.evq = s.evq := h .evq (by simp)
        unfold NoSlips; rwa [hq]
      append := fun r s hr h => by
        unfold appendRecord; split
        · intro q hq
          obtain hq | hq := List.mem_append.mp hq
          · exact h q hq
          · rw [List.mem_singleton.mp hq]; exact isSlip_of_noSlip hr
        · exact h }
  commitDone _ h := h

/-- The records of an event that sends no slip may be taken in any order. -/
theorem inTurn (turns : List Nat) {f : State → State} {s : State} (h : EventQueueLaw s)
    (hf : NoSlips (f (s.withEvq { s.evq with records := [] }))) : EventQueueLaw (inTurn turns f s) := by
  have taken : ∀ rs : List EventRecord, (∀ r ∈ rs, r.isSlip = false) → ∀ t, EventQueueLaw t →
      EventQueueLaw (rs.foldl (fun u r => appendRecord r u) t) := by
    intro rs
    induction rs with
    | nil => exact fun _ _ ht => ht
    | cons r rs ih =>
      intro hrs t ht
      exact ih (fun q hq => hrs q (List.mem_cons_of_mem _ hq)) _
        (ht.append fun _ _ => not_sameSlip (hrs r List.mem_cons_self))
  exact taken _ (fun r hr => hf r ((taken_perm turns _).mem_iff.mp hr)) _ h

theorem noSlips_nil (s : State) : NoSlips (s.withEvq { s.evq with records := [] }) := by simp [NoSlips]

theorem syncArrival (p : PhysLine) (sm : List Bool) (tx : Bool) (tn : List Nat) {s : State} (h : EventQueueLaw s) :
    EventQueueLaw (syncArrival p.line sm tx tn s) := by
  unfold Machine.syncArrival; split
  · next he =>
    exact (h.ofRecords (t := bitClocks p.line sm s)).inTurn tn
      (NoSlips.keptBySends.keptByLineEvents.judgeArrival (by simpa [State.external] using he) _ _ (noSlips_nil _))
  · exact h

theorem timerExpiry (p : PhysLine) (sm : List Bool) (tx : Bool) (tn : List Nat) {s : State} (h : EventQueueLaw s) :
    EventQueueLaw (timerExpiry p.line sm tx tn s) := by
  unfold Machine.timerExpiry; split
  · next he =>
    exact (h.ofRecords (t := bitClocks p.line sm s)).inTurn tn
      (NoSlips.keptBySends.keptByLineEvents.expire (by simpa [State.external] using he.1) _ (noSlips_nil _))
  · exact h

theorem fgFrameStart (g : Fin 2) (sm : Tab (List Bool) 8) (o : List Part) (tn : List Nat) {s : State}
    (h : EventQueueLaw s) : EventQueueLaw (fgFrameStart g sm o tn s) := by
  unfold Machine.fgFrameStart; split
  · exact (h.ofRecords (t := frameBitClocks g sm s)).inTurn tn
      (NoSlips.keptBySends.keptByLineEvents.frameStart _ (noSlips_nil _))
  · exact h

/-! ### Table memory and the host's accesses -/

theorem loadComplete {s : State} (h : EventQueueLaw s) : EventQueueLaw (loadComplete s) := by
  have selection : ∀ y program u, EventQueueLaw u → EventQueueLaw (selectSources y program u) := by
    intro y program u hu
    rw [selectSources_eq]
    refine foldl_invariant EventQueueLaw _ (fun t x ht => ?_) _ _ (hu.ofRecords (t := selected y program u) rfl)
    unfold reportSlip; split
    · exact ht
    · exact (ht.ofRecords (t := countUp y REPEAT_SLIPS t)).sendSlip ..
    · exact (ht.ofRecords (t := countUp y DROP_SLIPS t)).sendSlip ..
  unfold Machine.loadComplete; split
  · next y program live _ =>
    split
    · exact (selection y program _ (h.ofRecords (t := freePort s) rfl)).ofRecords
    · exact h.ofRecords (t := freePort s) rfl
  all_goals exact h

theorem copyStepComplete {s : State} (h : EventQueueLaw s) : EventQueueLaw (copyStepComplete s) := by
  unfold Machine.copyStepComplete; split
  · next i live _ =>
    have written : EventQueueLaw (freePort (s.withBank s.bc.staged
        (Bank.write (s.bank s.bc.staged) i (Bank.read (s.bank s.bc.active) i)))) := h.ofRecords
    dsimp only; split
    · unfold advanceCopy; dsimp only; split
      · exact written.ofRecords rfl
      · refine (keptBySends.reports.sendBankEvent (kind := .copyDone) rfl 0 ?_).ofRecords rfl
        exact written.ofRecords rfl
    · exact written
  all_goals exact h

theorem takeHeld (c : Instr) {s : State} (h : EventQueueLaw s) : EventQueueLaw (takeHeld c s) := by
  have k := keptBySends
  cases c
  case exchangeRestart => exact ⟨Nat.zero_le _, List.Pairwise.nil⟩
  case commit => exact k.commit h
  case evqPop v =>
    have shorter : s.evq.records.tail.length ≤ s.evq.records.length := by simp
    exact ⟨shorter.trans h.1, h.2.tail⟩
  case evqCountWrite v | evqHead0Read => exact h
  case lineDisable v => exact lineDisable_keeps (fun n t _ ht => k.disableLine n ht) v s h
  case lineRestart v => exact lineRestart_keeps (fun n t _ ht => k.restartLine n ht) v s h
  case fgStop v => exact fgStop_keeps (fun n g t _ _ ht => k.haltLine n ht) (fun g t ht => ht) v s h
  case groupPolicyWrite v => exact k.reports.groupPolicyWrite rfl v h
  case lineRelease v | groupRelease v => exact k.reports.releaseLines rfl rfl _ h
  case tpWrite =>
    have effect := tpWrite_effect s
    change EventQueueLaw (tpWrite s)
    generalize tpWrite s = t at effect ⊢
    cases effect with
    | refused | claims => exact restsOn s _ (by simp [Field.same]) h
    | config n c _ _ => exact (k.reports.writeConfig rfl n c h).ofRecords
  all_goals exact restsOn.keep (takeHeld_onlyChanges _ _) h

theorem kept : Kept EventQueueLaw where
  bus _ _ h := h
  pending _ _ h := h
  incoming _ _ h := h
  reset := ⟨by decide, List.Pairwise.nil⟩
  bit n b s h := restsOn.keep (bitClock_onlyChanges n b s) h
  arrival p sm tx tn s h := h.syncArrival p sm tx tn
  expiry p sm tx tn s h := h.timerExpiry p sm tx tn
  frameStart g sm o tn s h := h.fgFrameStart g sm o tn
  grant s h := restsOn.keep (arbiterGrant_onlyChanges s) h
  load s h := h.loadComplete
  copyStep s h := h.copyStepComplete
  mapRead e s _ h := restsOn.keep (finishMapRead_onlyChanges e s) h
  mapWrite e s _ h := restsOn.keep (finishMapWrite_onlyChanges e s) h
  timeOut s h := restsOn.keep (timeOut_onlyChanges s) h
  access c s _ h := h.takeHeld c

end EventQueueLaw

/-- Settles O57: only a load sends slips, and a slip merges into the record of its kind and pair. -/
theorem eventQueueStaysBoundedAndMerged : Obligations.EventQueueStaysBoundedAndMerged :=
  fun _ _ h hstep => EventQueueLaw.kept.step h hstep

end Sys2Proof.Machine
end

section
set_option Elab.async false -- one proof after the other, within the check's limit on threads
/-! The suspension flags after each operation of the lines (R123, R125, R127): what an operation may do to the flag of a line and
to what the span of its frame has seen, as a relation of the states before and after it that composes. -/

namespace Sys2Proof.Machine

/-- From `s` to `t` causes are only added, and the flags follow the isolating condition: that of a line is set anew only where the
condition holds, and the flag of a line that `tested` does not name stays set, as does the span of one that `spans` does not
name. -/
structure FlagsAfter (tested spans : Line → Prop) (s t : State) : Prop where
  policies : t.policies = s.policies
  config : ∀ m, (t.lines.get m).config = (s.lines.get m).config
  grows : ∀ n k, (s.causes.get n).has k = true → (t.causes.get n).has k = true
  law : ∀ n, (s.isolating n = true → (s.txas.get n).suspended = true) → t.isolating n = true →
    (t.txas.get n).suspended = true
  gains : ∀ n, (t.txas.get n).suspended = true → (s.txas.get n).suspended = true ∨ t.isolating n = true
  keeps : ∀ n, ¬ tested n → (s.txas.get n).suspended = true → (t.txas.get n).suspended = true
  clears : ∀ n, tested n → (t.txas.get n).suspended = true → t.isolating n = true
  spanKeeps : ∀ n, ¬ spans n → (s.txas.get n).spanSuspended = true → (t.txas.get n).spanSuspended = true
  spanGains : ∀ n, ¬ spans n → (t.txas.get n).spanSuspended = true →
    (s.txas.get n).spanSuspended = true ∨ t.isolating n = true
  spanLaw : ∀ n, ((s.txas.get n).suspended = true → (s.txas.get n).spanSuspended = true) →
    (t.txas.get n).suspended = true → (t.txas.get n).spanSuspended = true

/-- No line. -/
abbrev noLine : Line → Prop := fun _ => False

theorem CauseSet.faulted_iff (c : CauseSet) : c.faulted = true ↔ ∃ k, c.has k = true := by
  constructor
  · intro h
    simp only [CauseSet.faulted, Bool.or_eq_true] at h
    obtain (h | h) | h := h
    · exact ⟨.lost, h⟩
    · exact ⟨.degraded, h⟩
    · exact ⟨.group, h⟩
  · rintro ⟨k, h⟩
    cases k <;> simp_all [CauseSet.has, CauseSet.faulted]

/-- The isolating condition holds on as long as causes are only added. -/
theorem isolating_mono {s t : State} (hp : t.policies = s.policies)
    (hc : ∀ m, (t.lines.get m).config = (s.lines.get m).config)
    (hg : ∀ n k, (s.causes.get n).has k = true → (t.causes.get n).has k = true) {n : Line}
    (h : s.isolating n = true) : t.isolating n = true := by
  simp only [State.isolating, Bool.and_eq_true, State.faulted] at h ⊢
  obtain ⟨hf, hi⟩ := h
  obtain ⟨k, hk⟩ := (CauseSet.faulted_iff _).mp hf
  exact ⟨(CauseSet.faulted_iff _).mpr ⟨k, hg n k hk⟩, by rwa [policyOf_congr hp hc]⟩

/-- The isolating condition rests on the causes, the policies and the groups. -/
theorem isolating_of_same {s t : State} (hk : t.causes = s.causes) (hp : t.policies = s.policies)
    (hc : ∀ m, (t.lines.get m).config = (s.lines.get m).config) (n : Line) : t.isolating n = s.isolating n := by
  simp [State.isolating, State.faulted, hk, policyOf_congr hp hc]

namespace FlagsAfter

theorem isolating {a b : Line → Prop} {s t : State} (h : FlagsAfter a b s t) {n : Line} (hi : s.isolating n = true) :
    t.isolating n = true :=
  isolating_mono h.policies h.config h.grows hi

/-- What changes no cause, no policy, no group and no flag. -/
theorem same {s t : State} (hk : t.causes = s.causes := by simp) (hp : t.policies = s.policies := by simp)
    (hc : ∀ m, (t.lines.get m).config = (s.lines.get m).config := by simp)
    (hf : ∀ m, (t.txas.get m).suspended = (s.txas.get m).suspended
      ∧ (t.txas.get m).spanSuspended = (s.txas.get m).spanSuspended := by simp) : FlagsAfter noLine noLine s t where
  policies := hp
  config := hc
  grows n k h := by rwa [hk]
  law n h hi := by rw [(hf n).1]; exact h (by rwa [← isolating_of_same hk hp hc])
  gains n h := .inl (by rwa [← (hf n).1])
  keeps n _ h := by rwa [(hf n).1]
  clears n h := h.elim
  spanKeeps n _ h := by rwa [(hf n).2]
  spanGains n _ h := .inl (by rwa [← (hf n).2])
  spanLaw n h ht := by rw [(hf n).2]; exact h (by rwa [← (hf n).1])

theorem refl (s : State) : FlagsAfter noLine noLine s s := same rfl rfl (fun _ => rfl) (fun _ => ⟨rfl, rfl⟩)

theorem trans {a b c d : Line → Prop} {s t u : State} (h : FlagsAfter a b s t) (k : FlagsAfter c d t u) :
    FlagsAfter (fun n => a n ∨ c n) (fun n => b n ∨ d n) s u where
  policies := k.policies.trans h.policies
  config m := (k.config m).trans (h.config m)
  grows n j hj := k.grows n j (h.grows n j hj)
  law n hl := k.law n (h.law n hl)
  gains n hu := by
    obtain ht | hi := k.gains n hu
    · exact (h.gains n ht).imp_right k.isolating
    · exact .inr hi
  keeps n hn hs := k.keeps n (fun hc => hn (.inr hc)) (h.keeps n (fun ha => hn (.inl ha)) hs)
  clears n hn hu := by
    obtain ha | hc := hn
    · obtain ht | hi := k.gains n hu
      · exact k.isolating (h.clears n ha ht)
      · exact hi
    · exact k.clears n hc hu
  spanKeeps n hn hs := k.spanKeeps n (fun hc => hn (.inr hc)) (h.spanKeeps n (fun ha => hn (.inl ha)) hs)
  spanGains n hn hu := by
    obtain ht | hi := k.spanGains n (fun hc => hn (.inr hc)) hu
    · exact (h.spanGains n (fun ha => hn (.inl ha)) ht).imp_right k.isolating
    · exact .inr hi
  spanLaw n hl := k.spanLaw n (h.spanLaw n hl)

theorem congr {a b c d : Line → Prop} {s t : State} (h : FlagsAfter a b s t) (hac : ∀ n, a n ↔ c n)
    (hbd : ∀ n, b n ↔ d n) : FlagsAfter c d s t := by
  obtain rfl : a = c := funext fun n => propext (hac n)
  obtain rfl : b = d := funext fun n => propext (hbd n)
  exact h

/-- Operations that test no line compose to one that tests no line. -/
theorem thenNone {a b : Line → Prop} {s t u : State} (h : FlagsAfter a b s t) (k : FlagsAfter noLine noLine t u) :
    FlagsAfter a b s u := (h.trans k).congr (by simp) (by simp)

theorem afterNone {a b : Line → Prop} {s t u : State} (h : FlagsAfter noLine noLine s t) (k : FlagsAfter a b t u) :
    FlagsAfter a b s u := (h.trans k).congr (by simp) (by simp)

theorem fold {α : Type} {f : State → α → State} (step : ∀ t x, FlagsAfter noLine noLine t (f t x)) (l : List α)
    (s : State) : FlagsAfter noLine noLine s (l.foldl f s) :=
  foldl_invariant (fun t => FlagsAfter noLine noLine s t) f (fun t x h => h.thenNone (step t x)) l s (refl s)

/-- The law of the suspension flags is kept. -/
theorem keepsLaw {a b : Line → Prop} {s t : State} (h : FlagsAfter a b s t) (hs : SuspensionLaw s) : SuspensionLaw t :=
  fun n => ⟨h.law n (hs n).1, h.spanLaw n (hs n).2⟩

/-- The test of the lines whose spans may end. -/
theorem suspensionTested {a b : Line → Prop} {named : Line → Bool} {s t : State} (h : FlagsAfter a b s t)
    (ha : ∀ n, a n ↔ named n = true) (hb : ∀ n, b n → named n = true) : SuspensionTested named s t := by
  intro n
  refine ⟨h.grows n, h.law n, fun hn hi => ?_, fun hn => ?_⟩
  · rw [Bool.eq_false_iff]
    intro hs
    rw [h.clears n ((ha n).mpr hn) hs] at hi
    exact Bool.noConfusion hi
  · have hna : ¬ a n := fun h => by rw [(ha n).mp h] at hn; exact Bool.noConfusion hn
    have hnb : ¬ b n := fun h => by rw [hb n h] at hn; exact Bool.noConfusion hn
    exact ⟨h.keeps n hna, h.gains n, h.spanKeeps n hnb, h.spanGains n hnb⟩

/-! ### The operations -/

theorem addCause_txas (n m : Line) (c : Cause) (s : State) : (addCause n c s).txas.get m
    = if m = n ∧ (s.causes.get n).has c = false ∧ (addCause n c s).isolating n = true then
        { s.txas.get n with suspended := true, spanSuspended := true }
      else s.txas.get m := by
  unfold Machine.addCause; split
  · next h => simp [h]
  · next h =>
    have same : ∀ u : State, (suspendIfIsolating n u).isolating n = u.isolating n := fun u =>
      isolating_of_same (by simp) (by simp) (by simp) n
    rw [suspendIfIsolating_txas, same]
    have hf : (s.causes.get n).has c = false := by simpa using h
    simp [hf]

theorem addCause (n : Line) (c : Cause) (s : State) : FlagsAfter noLine noLine s (addCause n c s) := by
  have grows : ∀ m k, (s.causes.get m).has k = true → ((Machine.addCause n c s).causes.get m).has k = true :=
    fun m k h => addCause_mono n m c k s h
  by_cases hset : (s.causes.get n).has c = false ∧ (Machine.addCause n c s).isolating n = true
  · obtain ⟨hhas, hi⟩ := hset
    have flag : ∀ m, (Machine.addCause n c s).txas.get m = if m = n then
        { s.txas.get n with suspended := true, spanSuspended := true } else s.txas.get m := by
      intro m; rw [addCause_txas]; simp [hhas, hi]
    have other : ∀ m, m ≠ n → (Machine.addCause n c s).isolating m = s.isolating m := by
      intro m hm
      simp [State.isolating, State.faulted, addCause_causes, hm, State.policyOf, State.groupOf]
    refine ⟨by simp, by simp, grows, ?_, ?_, ?_, fun _ h => h.elim, ?_, ?_, ?_⟩ <;> intro m
    all_goals
      rw [flag]
      by_cases hm : m = n
      · subst hm; simp [hi]
      · simp +contextual [hm, other m hm]
  · have flag : ∀ m, (Machine.addCause n c s).txas.get m = s.txas.get m := by
      intro m; rw [addCause_txas, if_neg (fun h => hset h.2)]
    refine ⟨by simp, by simp, grows, ?_, ?_, ?_, fun _ h => h.elim, ?_, ?_, ?_⟩ <;> intro m <;> rw [flag]
    · intro hl hi
      by_cases hm : m = n
      · subst hm
        by_cases hhas : (s.causes.get m).has c = true
        · rw [show Machine.addCause m c s = s by simp [Machine.addCause, hhas]] at hi
          exact hl hi
        · exact absurd ⟨by simpa using hhas, hi⟩ hset
      · refine hl ?_
        simpa [State.isolating, State.faulted, addCause_causes, hm, State.policyOf, State.groupOf] using hi
    · exact .inl
    · exact fun _ h => h
    · exact fun _ h => h
    · exact fun _ => .inl
    · exact fun h => h

theorem giveGroup (g : Line → Bool) (s : State) : FlagsAfter noLine noLine s (giveGroup g s) :=
  fold (fun t m => by
    split
    · exact addCause m .group t
    · exact refl t) _ s

theorem addOwnCause (n : Line) (c : Cause) (s : State) : FlagsAfter noLine noLine s (addOwnCause n c s) := by
  unfold Machine.addOwnCause; split
  · exact refl s
  split
  · exact (addCause n c s).thenNone (giveGroup _ _)
  · exact addCause n c s

theorem reportLost (n : Line) (s : State) : FlagsAfter noLine noLine s (reportLost n s) :=
  (same (t := sendEvent .sync n 4 s)).thenNone (addOwnCause n .lost _)

theorem adopt (n : Line) (s : State) : FlagsAfter noLine noLine s (adopt n s) := same

theorem transmitStop (n : Line) (s : State) : FlagsAfter noLine noLine s (transmitStop n s) :=
  same (hf := fun m => by rw [transmitStop_txas]; split <;> simp_all)

theorem stopIfRunning (n : Line) (s : State) : FlagsAfter noLine noLine s (stopIfRunning n s) := by
  unfold Machine.stopIfRunning; split
  · exact (same (t := receiveStop n s)).thenNone (transmitStop n _)
  · exact refl s

theorem enterLost (n : Line) (tx : Bool) (s : State) : FlagsAfter noLine noLine s (enterLost n tx s) := by
  have entered : FlagsAfter noLine noLine s (enterReceiver n .lost (countUp n SYNC_LOSSES s)) := same
  unfold Machine.enterLost; dsimp only; split
  · exact ((entered.thenNone (transmitStop n _)).thenNone (reportLost n _)).thenNone same
  · exact ((entered.thenNone (reportLost n _)).thenNone (same (t := receiveStop n _))).thenNone (transmitStop n _)

theorem advanceWindow (n : Line) (d : Bool) (s : State) : FlagsAfter noLine noLine s (advanceWindow n d s) := by
  unfold Machine.advanceWindow; dsimp only; split
  · exact (same (t := s.withWindows _)).thenNone (addOwnCause n .degraded _)
  · exact same

theorem receiveBoundary (n : Line) (frame : List Word) (short : Bool) (s : State) :
    FlagsAfter noLine noLine s (receiveBoundary n frame short s) := by
  unfold Machine.receiveBoundary; split
  · refine thenNone ?_ (advanceWindow n _ _)
    exact same
  · exact same

theorem testSuspension (n : Line) (s : State) : FlagsAfter (· = n) (· = n) s (testSuspension n s) := by
  have still : ∀ m, (Machine.testSuspension n s).isolating m = s.isolating m :=
    isolating_of_same (by simp) (by simp) (by simp)
  have flag : ∀ m, (Machine.testSuspension n s).txas.get m
      = if m = n ∧ (s.txas.get n).suspended = true ∧ s.isolating n = false then
          { s.txas.get n with suspended := false,
                              spanSuspended := (s.txas.get n).spanSuspended && (s.txas.get n).fixed.isSome }
        else s.txas.get m := by
    intro m; unfold Machine.testSuspension; dsimp only; split
    · next h => 
      simp only [Bool.and_eq_true, Bool.not_eq_true'] at h
      simp [Tab.get_put, h]
    · next h =>
      simp only [Bool.and_eq_true, Bool.not_eq_true'] at h
      simp [h]
  refine ⟨by simp, by simp, fun m k h => by simpa using h, ?_, ?_, ?_, ?_, ?_, ?_, ?_⟩ <;> intro m
  all_goals
    simp only [flag, still]
    by_cases hm : m = n
    · subst hm
      by_cases hc : (s.txas.get m).suspended = true ∧ s.isolating m = false
      · simp [hc]
      · simp only [hc, and_false, if_false]; simp_all
    · simp_all

theorem endFrame_txas (n m : Line) (s : State) : (endFrame n s).txas.get m
    = if m = n ∧ n ≠ hostLine then { s.txas.get n with fixed := none } else s.txas.get m := by
  unfold endFrame; split
  · next h => simp [h]
  · next h => simp [Tab.get_put, h]

theorem endFrame (n : Line) (s : State) : FlagsAfter noLine noLine s (endFrame n s) :=
  same (hf := fun m => by rw [endFrame_txas]; split <;> simp_all)

theorem transmitBoundary (n : Line) (s : State) : FlagsAfter (· = n) (· = n) s (transmitBoundary n s) := by
  have adopted : FlagsAfter noLine noLine s (Machine.adopt n (releaseHolds n s)) := same
  have tested := (adopted.afterNone (testSuspension n _)).thenNone (endFrame n _)
  exact tested.thenNone (same (t := placeLoad n _))

theorem handOver (s : State) : FlagsAfter noLine noLine s (handOver s) := same

theorem deliverCapture (s : State) : FlagsAfter noLine (· = hostLine) s (deliverCapture s) := by
  have still : ∀ m, (Machine.deliverCapture s).isolating m = s.isolating m :=
    isolating_of_same (by simp) (by simp) (by simp)
  have flag : ∀ m, (Machine.deliverCapture s).txas.get m = if m = hostLine then
      { s.txas.get hostLine with fixed := none, spanSuspended := (s.txas.get hostLine).suspended }
      else s.txas.get m := by
    intro m; unfold Machine.deliverCapture; dsimp only; split <;> simp [Tab.get_put]
  refine ⟨by simp, by simp, fun m k h => by simpa using h, ?_, ?_, ?_, ?_, ?_, ?_, ?_⟩ <;> intro m
  all_goals
    simp only [flag, still]
    by_cases hm : m = hostLine
    · subst hm; simp +contextual
    · simp_all

theorem hostBoundary (s : State) : FlagsAfter noLine (· = hostLine) s (hostBoundary s) :=
  (handOver s).afterNone (deliverCapture _)

/-! ### The commands of LINE_ENABLE, LINE_RESTART and STOP -/

theorem enableLine (n : Line) (s : State) : FlagsAfter noLine noLine s (enableLine n s) := by
  refine same (hf := fun m => ?_)
  unfold Machine.enableLine zeroLastWords; split
  · simp only [State.withTxas_txas, State.withLines_txas, Tab.get_put]; split
    · next h => rw [h]; exact ⟨rfl, rfl⟩
    · exact ⟨rfl, rfl⟩
  · exact ⟨rfl, rfl⟩

theorem disableLine (n : Line) (s : State) : FlagsAfter noLine noLine s (disableLine n s) := by
  obtain ⟨-, -, -, hx, -⟩ := disableLine_rest n s
  exact (stopIfRunning n s).thenNone (same (by simp) (by simp) (by simp) (fun m => by rw [hx]; exact ⟨rfl, rfl⟩))

theorem restartLine (n : Line) (s : State) : FlagsAfter noLine noLine s (restartLine n s) := by
  obtain ⟨-, -, -, hx, -⟩ := restartLine_rest n s
  refine (stopIfRunning n s).thenNone (same (by simp) (by simp) (by simp) (fun m => ?_))
  rw [hx, Tab.get_put]; split
  · next h => rw [h]; exact ⟨rfl, rfl⟩
  · exact ⟨rfl, rfl⟩

theorem haltLine (n : Line) (s : State) : FlagsAfter noLine noLine s (haltLine n s) :=
  (stopIfRunning n s).thenNone (same (t := enterReceiver n .hunt _))

end FlagsAfter

end Sys2Proof.Machine
end

section
set_option Elab.async false -- one proof after the other, within the check's limit on threads
/-! The suspension of isolated lines (R123, R127): the settling of obligation O56. -/

namespace Sys2Proof.Machine

/-- The lines whose group's policy a GROUP_POLICY value changes. -/
def State.policyChanges (s : State) (v : Word) (n : Line) : Bool :=
  s.policies.get (s.groupOf n) != (policiesOf v).get (s.groupOf n)

/-- The state in which a GROUP_POLICY write has set the policies and suspended the lines that they isolate. -/
def policiesSet (v : Word) (s : State) : State :=
  allLines.foldl (fun t n => if s.policyChanges v n then suspendIfIsolating n t else t) (s.withPolicies (policiesOf v))

theorem groupPolicyWrite_eq (v : Word) (s : State) : groupPolicyWrite v s =
    giveGroup (fun n => s.policyChanges v n && (s.withPolicies (policiesOf v)).policyOf n == .isolateGroup
      && (s.withPolicies (policiesOf v)).otherOwnCause n) (policiesSet v s) := rfl

theorem policiesSet_frame (v : Word) (s : State) : OnlyChanges [.policies, .txas] s (policiesSet v s)
    ∧ (policiesSet v s).policies = policiesOf v := by
  refine foldl_invariant (fun t => OnlyChanges [.policies, .txas] s t ∧ t.policies = policiesOf v) _ ?_ _ _ ?_
  · intro t n ⟨hc, hp⟩
    split
    · refine ⟨hc.trans (u := suspendIfIsolating n t) ?_ (List.Subset.refl _), by simpa using hp⟩
      intro f hf; cases f <;> simp [Field.same] at hf ⊢
    · exact ⟨hc, hp⟩
  · exact ⟨by intro f hf; cases f <;> simp [Field.same] at hf ⊢, rfl⟩

theorem policiesSet_isolating (v : Word) (s : State) (n : Line) :
    (policiesSet v s).isolating n = (s.withPolicies (policiesOf v)).isolating n := by
  obtain ⟨hc, hp⟩ := policiesSet_frame v s
  exact isolating_congr (hc .causes (by decide)) (hc .lines (by decide)) hp

/-- The flags after the new policies have taken effect. -/
theorem policiesSet_txas (v : Word) (s : State) (n : Line) : (policiesSet v s).txas.get n
    = if s.policyChanges v n = true ∧ (s.withPolicies (policiesOf v)).isolating n = true then
        { s.txas.get n with suspended := true, spanSuspended := true }
      else s.txas.get n := by
  have still : ∀ (m k : Line) (t : State), (suspendIfIsolating m t).isolating k = t.isolating k := fun m k t =>
    isolating_of_same (by simp) (by simp) (by simp) k
  generalize hp : s.withPolicies (policiesOf v) = p
  have start : p.txas = s.txas := by rw [← hp]; rfl
  rw [policiesSet, hp]
  refine (foldl_allLines
    (P := fun t => t.txas.get n = s.txas.get n ∧ t.isolating n = p.isolating n)
    (Q := fun t => t.txas.get n = (if s.policyChanges v n = true ∧ p.isolating n = true then
      { s.txas.get n with suspended := true, spanSuspended := true } else s.txas.get n)
      ∧ t.isolating n = p.isolating n)
    n ⟨by rw [start], rfl⟩ ?_ ?_ ?_).1
  · intro t m hm ⟨ht, hi⟩; split
    · rw [suspendIfIsolating_txas, if_neg (fun h => hm h.1.symm), still]; exact ⟨ht, hi⟩
    · exact ⟨ht, hi⟩
  · intro t ⟨ht, hi⟩; split
    · next hc => rw [suspendIfIsolating_txas, still, ht, hi]; simp [hc]
    · next hc => simp [hc, ht, hi]
  · intro t m hm ⟨ht, hi⟩; split
    · rw [suspendIfIsolating_txas, if_neg (fun h => hm h.1.symm), still]; exact ⟨ht, hi⟩
    · exact ⟨ht, hi⟩

/-- A line whose group keeps its policy is isolated under the new ones as under the old. -/
theorem isolating_of_policy_kept {v : Word} {s : State} {n : Line} (h : s.policyChanges v n = false) :
    (s.withPolicies (policiesOf v)).isolating n = s.isolating n := by
  have hp : (policiesOf v).get (s.groupOf n) = s.policies.get (s.groupOf n) := by
    simp only [State.policyChanges, bne_eq_false_iff_eq] at h
    exact h.symm
  have hg : (s.withPolicies (policiesOf v)).groupOf n = s.groupOf n := rfl
  simp [State.isolating, State.policyOf, State.faulted, hg, hp]

/-- The state in which a LINE_CONFIG write has replaced the record of line `n`, before it moves the line (R2, R133). -/
def recordReplaced (n : Line) (c : LineConfig) (s : State) : State :=
  let t := s.withLines (s.lines.put n { s.lines.get n with config := c })
  if n = hostLine ∧ c.slotCount ≠ (s.lines.get n).config.slotCount then t.withHost t.host.clearInsert else t

theorem writeConfig_eq (n : Line) (c : LineConfig) (s : State) : writeConfig n c s
    = if c.group ≠ (s.lines.get n).config.group then moveGroup n (recordReplaced n c s) else recordReplaced n c s := rfl

theorem recordReplaced_frame (n : Line) (c : LineConfig) (s : State) :
    (recordReplaced n c s).causes = s.causes ∧ (recordReplaced n c s).policies = s.policies
      ∧ (recordReplaced n c s).txas = s.txas ∧ ((recordReplaced n c s).lines.get n).config = c
      ∧ ∀ m, m ≠ n → ((recordReplaced n c s).lines.get m).config = (s.lines.get m).config := by
  have lines : (recordReplaced n c s).lines = s.lines.put n { s.lines.get n with config := c } := by
    unfold recordReplaced; dsimp only; split <;> rfl
  rw [lines]
  refine ⟨?_, ?_, ?_, by rw [Tab.get_put, if_pos rfl], fun m hm => by rw [Tab.get_put, if_neg hm]⟩
  all_goals
    unfold recordReplaced; dsimp only; split <;> rfl

namespace SuspensionLaw

theorem restsOn : RestsOn SuspensionLaw [.lines, .causes, .policies, .txas] := by
  intro s t h hs n
  have hx : t.txas = s.txas := h .txas (by simp)
  rw [hx, isolating_congr (h .causes (by simp)) (h .lines (by simp)) (h .policies (by simp))]
  exact hs n

/-- What changes no cause, no policy, no group and no flag keeps the law. -/
theorem unchanged {s t : State} (h : SuspensionLaw s) (hk : t.causes = s.causes := by simp)
    (hp : t.policies = s.policies := by simp) (hc : ∀ m, (t.lines.get m).config = (s.lines.get m).config := by simp)
    (hf : ∀ m, (t.txas.get m).suspended = (s.txas.get m).suspended
      ∧ (t.txas.get m).spanSuspended = (s.txas.get m).spanSuspended := by simp) : SuspensionLaw t :=
  (FlagsAfter.same hk hp hc hf).keepsLaw h

theorem keptByLineEvents : KeptByLineEvents SuspensionLaw where
  count n s h := h.unchanged
  begins n s h := h.unchanged
  verifies p k s _ _ _ _ h := h.unchanged (t := verifying p.line k s) rfl rfl (by simp) (fun _ => ⟨rfl, rfl⟩)
  hunts p s _ h := h.unchanged
  loses p tx s _ _ h := (FlagsAfter.enterLost _ _ _).keepsLaw h
  locks n s _ h := h.unchanged
  rearms p e s _ _ _ h := h.unchanged
  receives p frame short s _ h := (FlagsAfter.receiveBoundary _ _ _ _).keepsLaw h
  transmits n s _ h := (FlagsAfter.transmitBoundary _ _).keepsLaw h
  hostBounds s _ h := (FlagsAfter.hostBoundary _).keepsLaw h
  starts g k s h := h

theorem policiesSet (v : Word) {s : State} (h : SuspensionLaw s) : SuspensionLaw (policiesSet v s) := by
  intro n
  rw [policiesSet_isolating, policiesSet_txas]
  by_cases hc : s.policyChanges v n = true
  · by_cases hi : (s.withPolicies (policiesOf v)).isolating n = true
    · simp [hc, hi]
    · simpa [hi] using (h n).2
  · rw [isolating_of_policy_kept (by simpa using hc), if_neg (fun h => hc h.1)]
    exact h n

theorem releaseLine (n : Line) {s : State} (h : SuspensionLaw s) : SuspensionLaw (releaseLine n s) := by
  intro m
  have hc : ∀ k, ((Machine.releaseLine n s).lines.get k).config = (s.lines.get k).config := by simp
  by_cases hm : m = n
  · subst hm
    refine ⟨fun hi => ?_, by simpa using (h m).2⟩
    simp [State.isolating, State.faulted, releaseLine_causes, CauseSet.empty, CauseSet.faulted] at hi
  · have same : (Machine.releaseLine n s).isolating m = s.isolating m := by
      simp [State.isolating, State.faulted, releaseLine_causes, hm, policyOf_congr (t := Machine.releaseLine n s)
        (by simp) hc m]
    rw [same]; simpa using h m

theorem releaseLines (named : Line → Bool) {s : State} (h : SuspensionLaw s) : SuspensionLaw (releaseLines named s) :=
  (FlagsAfter.giveGroup _ _).keepsLaw (foldl_invariant SuspensionLaw _ (fun t n ht => by
    split
    · exact ht.releaseLine n
    · exact ht) _ _ h)

/-- A record that moves its line into another group has that line's condition judged there at once. -/
theorem writeConfig (n : Line) (c : LineConfig) {s : State} (h : SuspensionLaw s) : SuspensionLaw (writeConfig n c s) := by
  obtain ⟨hk, hp, hx, hn, hc⟩ := recordReplaced_frame n c s
  rw [writeConfig_eq]
  generalize recordReplaced n c s = u at hk hp hx hn hc
  have other : ∀ m, m ≠ n → u.isolating m = s.isolating m := by
    intro m hm
    simp only [State.isolating, State.faulted, State.policyOf, State.groupOf, hk, hp, hc m hm]
  split
  · refine (FlagsAfter.giveGroup _ _).keepsLaw fun m => ?_
    have still : (suspendIfIsolating n u).isolating m = u.isolating m :=
      isolating_of_same (by simp) (by simp) (by simp) m
    rw [still, suspendIfIsolating_txas, hx]
    by_cases hm : m = n
    · subst hm
      by_cases hi : u.isolating m = true
      · simp [hi]
      · simpa [hi] using (h m).2
    · simp only [hm, false_and, if_false, other m hm]; exact h m
  · next hg =>
    intro m
    rw [hx]
    by_cases hm : m = n
    · subst hm
      have same : u.isolating m = s.isolating m := by
        have hgroup : c.group = (s.lines.get m).config.group := not_not.mp hg
        simp only [State.isolating, State.faulted, State.policyOf, State.groupOf, hk, hp, hn, hgroup]
      rw [same]; exact h m
    · rw [other m hm]; exact h m

/-- A load that completes changes no flag and no cause. -/
theorem loadComplete {s : State} (h : SuspensionLaw s) : SuspensionLaw (loadComplete s) := by
  have fixed : ∀ y t m, ((fixFrame y t).txas.get m).suspended = (t.txas.get m).suspended
      ∧ ((fixFrame y t).txas.get m).spanSuspended = (t.txas.get m).spanSuspended := by
    intro y t m
    simp only [fixFrame, State.withLines_txas, State.withTxas_txas, Tab.get_put]; split
    · next hm => rw [hm]; exact ⟨rfl, rfl⟩
    · exact ⟨rfl, rfl⟩
  have selection : ∀ y program t m, ((selectSources y program t).txas.get m).suspended = (t.txas.get m).suspended
      ∧ ((selectSources y program t).txas.get m).spanSuspended = (t.txas.get m).spanSuspended := by
    intro y program t m
    rw [(selectSources_eq_selected y program t).2.2]
    simp only [selected, State.withTxas_txas, Tab.get_put]; split
    · next hm => rw [hm]; exact ⟨rfl, rfl⟩
    · exact ⟨rfl, rfl⟩
  refine h.unchanged (by simp) (by simp) (by simp [loadComplete_config]) fun m => ?_
  unfold Machine.loadComplete; split
  · next y program live _ =>
    split
    · rw [(fixed ..).1, (fixed ..).2]; exact selection y program (freePort s) m
    · exact ⟨rfl, rfl⟩
  all_goals exact ⟨rfl, rfl⟩

theorem takeHeld (c : Instr) {s : State} (h : SuspensionLaw s) : SuspensionLaw (takeHeld c s) := by
  cases c
  case exchangeRestart =>
    intro n
    simp [Machine.takeHeld, exchangeRestart, State.isolating, State.faulted, CauseSet.empty, CauseSet.faulted,
      Assembler.reset]
  case lineEnable v => exact lineEnable_keeps (fun n t _ ht => (FlagsAfter.enableLine n t).keepsLaw ht) v s h
  case lineDisable v => exact lineDisable_keeps (fun n t _ ht => (FlagsAfter.disableLine n t).keepsLaw ht) v s h
  case lineRestart v => exact lineRestart_keeps (fun n t _ ht => (FlagsAfter.restartLine n t).keepsLaw ht) v s h
  case fgStop v =>
    exact fgStop_keeps (fun n g t _ _ ht => (FlagsAfter.haltLine n t).keepsLaw ht) (fun g t ht => ht) v s h
  case groupPolicyWrite v => exact (FlagsAfter.giveGroup _ _).keepsLaw (h.policiesSet v)
  case lineRelease v | groupRelease v => exact h.releaseLines _
  case tpWrite =>
    have effect := tpWrite_effect s
    change SuspensionLaw (tpWrite s)
    generalize tpWrite s = t at effect ⊢
    cases effect with
    | refused | claims => exact restsOn s _ (by simp [Field.same]) h
    | config n c _ _ => exact (SuspensionLaw.writeConfig n c h).unchanged
  all_goals exact restsOn.keep (takeHeld_onlyChanges _ _) h

theorem kept : Kept SuspensionLaw :=
  keptByLineEvents.kept restsOn
    (bit := fun n b s h => restsOn.keep (bitClock_onlyChanges n b s) h)
    (reset := by unfold SuspensionLaw; decide)
    (grant := fun s h => restsOn.keep (arbiterGrant_onlyChanges s) h)
    (load := fun s h => loadComplete h)
    (copyStep := fun s h => restsOn.keep (copyStepComplete_onlyChanges s) h)
    (mapRead := fun e s _ h => restsOn.keep (finishMapRead_onlyChanges e s) h)
    (mapWrite := fun e s _ h => restsOn.keep (finishMapWrite_onlyChanges e s) h)
    (timeOut := fun s h => restsOn.keep (timeOut_onlyChanges s) h)
    (access := fun c _ _ h => takeHeld c h)

end SuspensionLaw

/-- Settles O56: a flag is set the moment its condition holds, and only the test at a boundary of the line clears it. -/
theorem isolatedLinesStaySuspended : Obligations.IsolatedLinesStaySuspended :=
  fun _ _ h hstep => SuspensionLaw.kept.step h hstep

end Sys2Proof.Machine
end

section
set_option Elab.async false -- one proof after the other, within the check's limit on threads
/-! What the operations of the lines do to bank control and to the event queue: the adoptions they make (R100, R101, R104), and
that they otherwise only send events (R165, R167), as relations of the states before and after that compose. -/

namespace Sys2Proof.Machine

/-! ### Records taken by the queue -/

/-- A full list loses every record. -/
theorem appendRecords_full (rs : List EventRecord) (s : State) (h : 32 ≤ s.evq.records.length) :
    (rs.foldl (fun u r => appendRecord r u) s).evq.records = s.evq.records
      ∧ (rs.foldl (fun u r => appendRecord r u) s).evq.latch = s.evq.latch
      ∧ (rs.foldl (fun u r => appendRecord r u) s).irq = { s.irq with evqLoss := s.irq.evqLoss || !rs.isEmpty } := by
  induction rs generalizing s with
  | nil => simp
  | cons r rs ih =>
    have lost := appendRecord_of_full r h
    obtain ⟨hr, hl, hi⟩ := ih (appendRecord r s) (by rw [lost]; exact h)
    rw [List.foldl_cons, hr, hl, hi, lost]
    exact ⟨rfl, rfl, by simp⟩

/-- A list of records that the queue takes one by one: those for which it has room. -/
theorem appendRecords_spec (rs : List EventRecord) (s : State) : ∃ taken lost, rs = taken ++ lost
    ∧ (rs.foldl (fun u r => appendRecord r u) s).evq.records = s.evq.records ++ taken
    ∧ (rs.foldl (fun u r => appendRecord r u) s).evq.latch = s.evq.latch
    ∧ (rs.foldl (fun u r => appendRecord r u) s).irq = { s.irq with evqLoss := s.irq.evqLoss || !lost.isEmpty }
    ∧ (lost = [] → (rs.foldl (fun u r => appendRecord r u) s).evq.lost = s.evq.lost)
    ∧ (lost ≠ [] → 32 ≤ (s.evq.records ++ taken).length) := by
  by_cases hroom : s.evq.records.length + rs.length ≤ 32
  · refine ⟨rs, [], by simp, ?_⟩
    rw [appendRecords_room rs s (by simpa [Config.eventCapacity] using hroom)]
    simp
  by_cases hfull : 32 ≤ s.evq.records.length
  · obtain ⟨hr, hl, hi⟩ := appendRecords_full rs s hfull
    refine ⟨[], rs, rfl, by rw [hr]; simp, hl, hi, ?_, fun _ => by simpa using hfull⟩
    rintro rfl; rfl
  have fits : s.evq.records.length + (rs.take (32 - s.evq.records.length)).length = 32 := by
    rw [List.length_take]; omega
  have split := List.take_append_drop (32 - s.evq.records.length) rs
  generalize rs.take (32 - s.evq.records.length) = taken at fits split
  generalize rs.drop (32 - s.evq.records.length) = lost at split
  subst split
  refine ⟨taken, lost, rfl, ?_⟩
  rw [List.foldl_append, appendRecords_room taken s (by rw [fits]; exact Nat.le_refl _)]
  obtain ⟨hr, hl, hi⟩ := appendRecords_full lost (s.withEvq { s.evq with records := s.evq.records ++ taken })
    (by simp [fits])
  refine ⟨hr, hl, hi, ?_, fun _ => by simp [fits]⟩
  rintro rfl; rfl

/-- What the queue takes of the records of one event: in some order, and all of them where it has room after them or loses
none. -/
structure TakenInTurn (s t u : State) (taken : List EventRecord) : Prop where
  records : u.evq.records = s.evq.records ++ taken
  mem : ∀ r ∈ taken, r ∈ t.evq.records
  latch : u.evq.latch = s.evq.latch
  irq : u.irq = { t.irq with evqLoss := u.irq.evqLoss }
  loss : t.irq.evqLoss = true → u.irq.evqLoss = true
  room : u.evq.records.length < 32 → u.irq.evqLoss = t.irq.evqLoss ∧ u.evq.lost = s.evq.lost
  all : u.evq.records.length < 32 ∨ u.irq.evqLoss = false → taken.Perm t.evq.records

theorem inTurn_taken (turns : List Nat) (f : State → State) (s : State) :
    ∃ taken, TakenInTurn s (f (s.withEvq { s.evq with records := [] })) (inTurn turns f s) taken := by
  generalize ht : f (s.withEvq { s.evq with records := [] }) = t
  have hu : inTurn turns f s
      = (interleave turns (chains t.evq.records)).foldl (fun u r => appendRecord r u) (t.withEvq s.evq) := by
    rw [inTurn, ht]
  rw [hu]
  obtain ⟨taken, lost, hsplit, hr, hl, hi, hk, hn⟩ := appendRecords_spec (interleave turns (chains t.evq.records))
    (t.withEvq s.evq)
  have perm := taken_perm turns t.evq.records
  rw [hsplit] at perm
  rw [hsplit] at hr hl hi hk ⊢
  have none_lost : ((taken ++ lost).foldl (fun u r => appendRecord r u) (t.withEvq s.evq)).evq.records.length < 32 →
      lost = [] := by
    intro hlen
    by_contra hne
    rw [hr] at hlen
    exact absurd (hn hne) (Nat.not_le.mpr hlen)
  refine ⟨taken, hr, fun r h => perm.mem_iff.mp (List.mem_append_left _ h), hl, ?_, ?_, ?_, ?_⟩
  · rw [hi]; rfl
  · intro h; rw [hi]; simp [h]
  · intro hlen
    have hlost := none_lost hlen
    exact ⟨by rw [hi]; simp [hlost], hk hlost⟩
  · intro h
    have hlost : lost = [] := by
      obtain h | h := h
      · exact none_lost h
      · rw [hi] at h; simp at h; exact h.2
    simpa [hlost] using perm

/-! ### Nothing but events is sent (R165, R167) -/

namespace OnlySends

theorem refl (s : State) : OnlySends s s := ⟨rfl, id, rfl, fun _ => ⟨rfl, rfl⟩⟩

theorem keptBySends (s : State) : KeptBySends (OnlySends s) where
  reports :=
    { rests := fun t u h ht => by
        have hq : u.evq = t.evq := h .evq (by simp)
        have hi : u.irq = t.irq := h .irq (by simp)
        unfold OnlySends; rw [hq, hi]; exact ht
      append := fun r t _ ⟨hirq, hloss, hlatch, hroom⟩ => by
        unfold appendRecord; split
        · refine ⟨hirq, hloss, hlatch, fun hlen => hroom ?_⟩
          have hlen : (t.evq.records ++ [r]).length < 32 := hlen
          rw [List.length_append] at hlen; omega
        · next hfull =>
          refine ⟨by rw [State.withIrq_irq, hirq], fun _ => rfl, hlatch, fun hlen => absurd hlen hfull⟩ }
  commitDone t h := ⟨by rw [State.withIrq_irq, h.1], h.2.1, h.2.2.1, h.2.2.2⟩

theorem inTurn {turns : List Nat} {f : State → State} {s : State}
    (h : OnlySends (s.withEvq { s.evq with records := [] }) (f (s.withEvq { s.evq with records := [] }))) :
    OnlySends s (inTurn turns f s) := by
  obtain ⟨taken, k⟩ := inTurn_taken turns f s
  obtain ⟨hirq, hloss, -, hroom⟩ := h
  refine ⟨by rw [k.irq, hirq]; rfl, fun hs => k.loss (hloss hs), k.latch, fun hlen => ?_⟩
  obtain ⟨hl, hlost⟩ := k.room hlen
  have hshort : (f (s.withEvq { s.evq with records := [] })).evq.records.length < 32 := by
    rw [← (k.all (.inl hlen)).length_eq]
    rw [k.records, List.length_append] at hlen; omega
  exact ⟨hl.trans (hroom hshort).1, hlost⟩

end OnlySends

/-! ### Adoptions (R100, R101, R104) -/

/-- The lines that `leave` names are the last members of the adoption set. -/
def State.lastLeave (s : State) (leave : Line → Prop) : Prop :=
  (∃ n, s.bc.adoptionSet.get n = true) ∧ ∀ n, s.bc.adoptionSet.get n = true → leave n

/-- The record of the COMMIT_DONE event of the pending commit. -/
def State.commitRecord (s : State) : EventRecord := ⟨.commitDone, 0, 0, 1, if s.bc.active = .B then 1 else 0, 0⟩

/-- The lines that `leave` names leave the adoption set, the last one completing the commit; other events may be sent. -/
structure Adopts (leave : Line → Prop) (s t : State) : Prop where
  bc : t.bc = { s.bc with pair := t.bc.pair, current := t.bc.current, adoptionSet := t.bc.adoptionSet }
  members : ∀ n, t.bc.adoptionSet.get n = true ↔ s.bc.adoptionSet.get n = true ∧ ¬ leave n
  adopted : ∀ n, s.bc.adoptionSet.get n = true → leave n → t.bc.current.get n = s.bc.active
  others : ∀ n, ¬ (s.bc.adoptionSet.get n = true ∧ leave n) → t.bc.current.get n = s.bc.current.get n
  sends : ∃ sent, t.evq.records = s.evq.records ++ sent
    ∧ (s.lastLeave leave → t.bc.pair = .stable ∧ t.irq.commitDone = true
      ∧ (t.evq.records.length < 32 → s.commitRecord ∈ sent))
    ∧ (¬ s.lastLeave leave → t.bc.pair = s.bc.pair ∧ t.irq.commitDone = s.irq.commitDone
      ∧ ∀ r ∈ sent, r.kind ≠ .commitDone)

/-- From `s` to `t` events are sent, none of them a COMMIT_DONE. -/
def Reports (s t : State) : Prop :=
  t.irq.commitDone = s.irq.commitDone
    ∧ ∃ sent, t.evq.records = s.evq.records ++ sent ∧ ∀ r ∈ sent, r.kind ≠ .commitDone

theorem Reports.kept (s : State) : KeptByReports (fun k => k != .commitDone) (Reports s) where
  rests t u h ht := by
    have hq : u.evq = t.evq := h .evq (by simp)
    have hi : u.irq = t.irq := h .irq (by simp)
    unfold Reports; rw [hq, hi]; exact ht
  append r t hr h := by
    obtain ⟨hd, sent, hs, hk⟩ := h
    unfold appendRecord; split
    · refine ⟨hd, sent ++ [r], by simp [hs], fun q hq => ?_⟩
      obtain hq | hq := List.mem_append.mp hq
      · exact hk q hq
      · rw [List.mem_singleton.mp hq]; simpa using hr
    · exact ⟨hd, sent, hs, hk⟩

theorem Reports.refl (s : State) : Reports s s := ⟨rfl, [], by simp⟩

namespace Adopts

theorem ofReports {s t : State} (h : Reports s t) (hb : t.bc = s.bc := by simp) : Adopts noLine s t where
  bc := by rw [hb]
  members n := by simp [hb]
  adopted _ _ h := h.elim
  others n _ := by rw [hb]
  sends := by
    obtain ⟨hd, sent, hs, hk⟩ := h
    refine ⟨sent, hs, fun ⟨⟨n, hn⟩, hl⟩ => (hl n hn).elim, fun _ => ⟨by rw [hb], hd, hk⟩⟩

/-- What leaves bank control, the queue and the interrupt block. -/
theorem same {s t : State} (hb : t.bc = s.bc := by simp) (hq : t.evq = s.evq := by simp)
    (hi : t.irq = s.irq := by simp) : Adopts noLine s t :=
  ofReports ((Reports.kept s).same (Reports.refl s) hq hi) hb

theorem refl (s : State) : Adopts noLine s s := same rfl rfl rfl

theorem congr {a b : Line → Prop} {s t : State} (h : Adopts a s t) (hab : ∀ n, a n ↔ b n) : Adopts b s t := by
  obtain rfl : a = b := funext fun n => propext (hab n)
  exact h

theorem trans {a b : Line → Prop} {s t u : State} (h : Adopts a s t) (k : Adopts b t u) :
    Adopts (fun n => a n ∨ b n) s u where
  bc := by rw [k.bc, h.bc]
  members n := by rw [k.members, h.members]; tauto
  adopted n hn hab := by
    have active : t.bc.active = s.bc.active := by rw [h.bc]
    by_cases ha : a n
    · rw [k.others n (by rw [h.members]; tauto), h.adopted n hn ha]
    · rw [k.adopted n ((h.members n).mpr ⟨hn, ha⟩) (hab.resolve_left ha), active]
  others n hn := by
    rw [k.others n (by rw [h.members]; tauto), h.others n (by tauto)]
  sends := by
    obtain ⟨first, hr, hlast, hnot⟩ := h.sends
    obtain ⟨second, kr, klast, knot⟩ := k.sends
    refine ⟨first ++ second, by rw [kr, hr, List.append_assoc], ?_, ?_⟩
    · intro hl
      by_cases ha : s.lastLeave a
      · have none : ¬ t.lastLeave b := by
          rintro ⟨⟨n, hn⟩, -⟩
          obtain ⟨hn, hna⟩ := (h.members n).mp hn
          exact hna (ha.2 n hn)
        obtain ⟨hp, hc, hm⟩ := hlast ha
        obtain ⟨kp, kc, -⟩ := knot none
        refine ⟨kp.trans hp, kc.trans hc, fun hlen => List.mem_append_left _ (hm ?_)⟩
        rw [kr, List.length_append] at hlen; omega
      · have rest : t.lastLeave b := by
          refine ⟨?_, fun n hn => ?_⟩
          · by_contra hno
            refine ha ⟨hl.1, fun n hn => ?_⟩
            by_contra hna
            exact hno ⟨n, (h.members n).mpr ⟨hn, hna⟩⟩
          · obtain ⟨hn, hna⟩ := (h.members n).mp hn
            exact (hl.2 n hn).resolve_left hna
        obtain ⟨kp, kc, km⟩ := klast rest
        have active : t.bc.active = s.bc.active := by rw [h.bc]
        have record : t.commitRecord = s.commitRecord := by simp only [State.commitRecord, active]
        exact ⟨kp, kc, fun hlen => List.mem_append_right _ (record ▸ km hlen)⟩
    · intro hl
      have ha : ¬ s.lastLeave a := fun ha => hl ⟨ha.1, fun n hn => .inl (ha.2 n hn)⟩
      have hb : ¬ t.lastLeave b := by
        rintro ⟨⟨n, hn⟩, hall⟩
        refine hl ⟨⟨n, ((h.members n).mp hn).1⟩, fun m hm => ?_⟩
        by_cases hma : a m
        · exact .inl hma
        · exact .inr (hall m ((h.members m).mpr ⟨hm, hma⟩))
      obtain ⟨hp, hc, hm⟩ := hnot ha
      obtain ⟨kp, kc, km⟩ := knot hb
      refine ⟨kp.trans hp, kc.trans hc, fun r hr => ?_⟩
      exact (List.mem_append.mp hr).elim (hm r) (km r)

theorem thenNone {a : Line → Prop} {s t u : State} (h : Adopts a s t) (k : Adopts noLine t u) : Adopts a s u :=
  (h.trans k).congr (by simp)

theorem afterNone {a : Line → Prop} {s t u : State} (h : Adopts noLine s t) (k : Adopts a t u) : Adopts a s u :=
  (h.trans k).congr (by simp)

theorem inTurn {a : Line → Prop} {turns : List Nat} {f : State → State} {s : State}
    (h : Adopts a (s.withEvq { s.evq with records := [] }) (f (s.withEvq { s.evq with records := [] }))) :
    Adopts a s (inTurn turns f s) := by
  obtain ⟨taken, k⟩ := inTurn_taken turns f s
  have hbc : (Machine.inTurn turns f s).bc = (f (s.withEvq { s.evq with records := [] })).bc := by simp
  have hdone : (Machine.inTurn turns f s).irq.commitDone = (f (s.withEvq { s.evq with records := [] })).irq.commitDone := by
    rw [k.irq]
  refine ⟨by rw [hbc]; exact h.bc, by rw [hbc]; exact h.members, by rw [hbc]; exact h.adopted,
    by rw [hbc]; exact h.others, taken, k.records, ?_, ?_⟩
  · intro hl
    obtain ⟨sent, hr, hlast, -⟩ := h.sends
    obtain ⟨hp, hc, hm⟩ := hlast hl
    refine ⟨by rw [hbc]; exact hp, hdone.trans hc, fun hlen => ?_⟩
    have perm := k.all (.inl hlen)
    refine perm.mem_iff.mpr ?_
    rw [hr]
    refine List.mem_append_right _ (hm ?_)
    rw [← perm.length_eq]
    rw [k.records, List.length_append] at hlen; omega
  · intro hl
    obtain ⟨sent, hr, -, hnot⟩ := h.sends
    obtain ⟨hp, hc, hm⟩ := hnot hl
    refine ⟨by rw [hbc]; exact hp, hdone.trans hc, fun r hrt => hm r ?_⟩
    have := k.mem r hrt
    rw [hr] at this; simpa using this

theorem adoptionBy {a : Line → Prop} {named : Line → Bool} {s t : State} (h : Adopts a s t)
    (ha : ∀ n, a n ↔ named n = true) : AdoptionBy named s t := by
  refine ⟨h.bc, fun n => ⟨?_, ?_⟩, ?_⟩
  · rw [Bool.eq_iff_iff, h.members, ha]; simp
  · split
    · next hn =>
      obtain ⟨hn, hl⟩ := Bool.and_eq_true_iff.mp hn
      exact h.adopted n hn ((ha n).mpr hl)
    · next hn => exact h.others n (fun ⟨h1, h2⟩ => hn (by rw [h1, (ha n).mp h2]; rfl))
  · obtain ⟨sent, hr, hlast, hnot⟩ := h.sends
    have last : s.lastLeave a ↔ (∃ n, s.bc.adoptionSet.get n = true) ∧ ∀ n, s.bc.adoptionSet.get n = true → named n = true :=
      and_congr_right fun _ => forall_congr' fun n => imp_congr_right fun _ => ha n
    exact ⟨sent, hr, fun hl => hlast (last.mpr hl), fun hl => hnot (fun h => hl (last.mp h))⟩

/-! ### The operations -/

/-- A commit that completes sends its event, with room for it in the list. -/
theorem completeCommit_sends (s : State) : ∃ sent, (completeCommit s).evq.records = s.evq.records ++ sent
    ∧ ((completeCommit s).evq.records.length < 32 → s.commitRecord ∈ sent) := by
  have code : (BitVec.ofNat 16 s.bc.active.code : Word) = if s.bc.active = .B then 1 else 0 := by
    cases s.bc.active <;> rfl
  by_cases hroom : s.evq.records.length < 32
  · refine ⟨[s.commitRecord], ?_, fun _ => List.mem_singleton.mpr rfl⟩
    rw [((completeCommit_spec s).2.2 hroom).2, State.commitRecord, code]
  · have full : (completeCommit s).evq.records = s.evq.records := by
      simp only [completeCommit, sendBankEvent, appendRecord]
      rw [if_neg (by simpa [Config.eventCapacity] using hroom)]; rfl
    exact ⟨[], by simpa using full, fun h => absurd (full ▸ h) hroom⟩

theorem adopt (n : Line) (s : State) : Adopts (· = n) s (adopt n s) := by
  by_cases hm : s.bc.adoptionSet.get n = true
  · have members : ∀ m, (s.bc.adoptionSet.erase n).get m = true ↔ s.bc.adoptionSet.get m = true ∧ ¬ m = n := by
      intro m; rw [get_erase]; simp
    have current : ∀ m, (s.bc.current.put n s.bc.active).get m = if m = n then s.bc.active else s.bc.current.get m :=
      fun m => Tab.get_put ..
    have adopted : ∀ m, m = n → (s.bc.current.put n s.bc.active).get m = s.bc.active := fun m h => by
      rw [current, if_pos h]
    have others : ∀ m, ¬ (s.bc.adoptionSet.get m = true ∧ m = n) →
        (s.bc.current.put n s.bc.active).get m = s.bc.current.get m := fun m h => by
      have hne : m ≠ n := fun e => h ⟨by rw [e]; exact hm, e⟩
      rw [current, if_neg hne]
    have last : s.lastLeave (· = n) ↔ (s.bc.adoptionSet.erase n).isEmpty = true := by
      rw [isEmpty_iff]
      constructor
      · rintro ⟨-, hall⟩ m
        rw [Bool.eq_false_iff]
        intro h
        exact ((members m).mp h).2 (hall m ((members m).mp h).1)
      · refine fun h => ⟨⟨n, hm⟩, fun m hmem => ?_⟩
        by_contra hne
        have := h m
        rw [(members m).mpr ⟨hmem, hne⟩] at this; cases this
    rw [Machine.adopt, if_pos hm]; dsimp only
    split
    · next he =>
      obtain ⟨sent, hr, hs⟩ := completeCommit_sends (s.withBc { s.bc with
        current := s.bc.current.put n s.bc.active, adoptionSet := s.bc.adoptionSet.erase n })
      obtain ⟨hb, hi, -⟩ := completeCommit_spec (s.withBc { s.bc with
        current := s.bc.current.put n s.bc.active, adoptionSet := s.bc.adoptionSet.erase n })
      refine ⟨by rw [hb]; rfl, by rw [hb]; exact members, by rw [hb]; exact fun m _ => adopted m,
        by rw [hb]; exact others, sent, hr, fun _ => ⟨by rw [hb], by rw [hi], hs⟩, fun h => absurd (last.mpr he) h⟩
    · next he =>
      exact ⟨rfl, members, fun m _ => adopted m, others, [], by simp, fun h => absurd (last.mp h) he,
        fun _ => by simp⟩
  · have hm : s.bc.adoptionSet.get n = false := by simpa using hm
    rw [adopt_out hm]
    refine ⟨rfl, fun m => ?_, fun m h e => ?_, fun m _ => rfl, [], by simp, fun hl => ?_, fun _ => by simp⟩
    · exact ⟨fun h => ⟨h, fun e => by rw [e, hm] at h; cases h⟩, And.left⟩
    · rw [e, hm] at h; cases h
    · obtain ⟨⟨m, hmem⟩, hall⟩ := hl
      rw [hall m hmem, hm] at hmem; cases hmem

theorem transmitStop (n : Line) (s : State) : Adopts (· = n) s (transmitStop n s) :=
  ((same (t := dropHolds n s)).afterNone (adopt n _)).thenNone
    (same (by simp [Machine.transmitStop]) (by simp [Machine.transmitStop]) (by simp [Machine.transmitStop]))

theorem stopLine (n : Line) (s : State) : Adopts (· = n) s (stopLine n s) :=
  (same (t := receiveStop n s)).afterNone (transmitStop n _)

theorem stopIfRunning (n : Line) (s : State) : Adopts (fun m => m = n ∧ s.running n = true) s (stopIfRunning n s) := by
  unfold Machine.stopIfRunning; split
  · next h => exact (stopLine n s).congr (by simp [h])
  · next h => exact (refl s).congr (by simp [h])

theorem haltLine (n : Line) (s : State) : Adopts (fun m => m = n ∧ s.running n = true) s (haltLine n s) :=
  (stopIfRunning n s).thenNone (same (t := enterReceiver n .hunt _))

theorem disableLine (n : Line) (s : State) : Adopts (fun m => m = n ∧ s.running n = true) s (disableLine n s) := by
  obtain ⟨-, -, -, -, hb, -, hq, hi, -⟩ := disableLine_rest n s
  exact (stopIfRunning n s).thenNone (same hb hq hi)

theorem restartLine (n : Line) (s : State) : Adopts (fun m => m = n ∧ s.running n = true) s (restartLine n s) := by
  obtain ⟨-, -, -, -, hb, -, hq, hi, -⟩ := restartLine_rest n s
  exact (stopIfRunning n s).thenNone (same hb hq hi)

theorem enterLost (n : Line) (tx : Bool) (s : State) : Adopts (· = n) s (enterLost n tx s) := by
  have entered : Adopts noLine s (enterReceiver n .lost (countUp n SYNC_LOSSES s)) := same
  have reported : ∀ t, Adopts noLine t (reportLost n t) := fun t =>
    ofReports ((Reports.kept t).reportLost rfl rfl n (Reports.refl t))
  unfold Machine.enterLost; dsimp only; split
  · exact ((entered.afterNone (transmitStop n _)).thenNone (reported _)).thenNone same
  · exact ((entered.thenNone (reported _)).thenNone (same (t := receiveStop n _))).afterNone (transmitStop n _)

theorem transmitBoundary (n : Line) (s : State) : Adopts (· = n) s (transmitBoundary n s) :=
  ((same (t := releaseHolds n s)).afterNone (adopt n _)).thenNone
    (same (by simp [Machine.transmitBoundary]) (by simp [Machine.transmitBoundary]) (by simp [Machine.transmitBoundary]))

theorem receiveBoundary (n : Line) (frame : List Word) (short : Bool) (s : State) :
    Adopts noLine s (receiveBoundary n frame short s) :=
  ofReports ((Reports.kept s).receiveBoundary rfl rfl n frame short (Reports.refl s))

theorem lock (n : Line) (s : State) : Adopts noLine s (lock n s) :=
  ofReports ((Reports.kept s).lock rfl n (Reports.refl s))

theorem hostBoundary (s : State) : Adopts noLine s (hostBoundary s) :=
  ofReports ((Reports.kept s).hostBoundary rfl rfl rfl (Reports.refl s))

end Adopts

end Sys2Proof.Machine
end

section
set_option Elab.async false -- one proof after the other, within the check's limit on threads
/-! The banks that the lines read (R95) and the claims of a copy (R91, R107): the settling of obligation O54. -/

namespace Sys2Proof.Machine

/-- A granted copy step of a copy in progress. -/
def Arbiter.liveStep (a : Arbiter) : Option Nat :=
  match a.grant with
  | some (.copyStep i true) => some i
  | _ => none

theorem Arbiter.liveStep_eq_some {a : Arbiter} {i : Nat} : a.liveStep = some i ↔ a.grant = some (.copyStep i true) := by
  unfold Arbiter.liveStep
  split
  · next j h => rw [h]; simp
  · next h =>
    constructor
    · intro e; cases e
    · intro e; exact absurd e (h i)

theorem Arbiter.withdrawn_liveStep (n : Line) (a : Arbiter) : (a.withdrawn n).liveStep = a.liveStep := by
  simp only [Arbiter.withdrawn, Arbiter.liveStep]
  cases a.grant with
  | none => rfl
  | some g => cases g <;> rfl

/-- A line that stays LOCKED and enabled runs on. -/
theorem running_of_same {s t : State} {n : Line} (he : (t.lines.get n).enabled = (s.lines.get n).enabled)
    (hr : t.receiver n = s.receiver n) : t.running n = s.running n := by
  simp only [State.receiver] at hr
  simp [State.running, LineUnit.running, he, hr]

/-- The copy's part of the arbiter. -/
def State.copyPart (s : State) : Option Nat × Option Nat := (s.arb.copyClaim, s.arb.liveStep)

namespace BankPairLaw

theorem restsOn : RestsOn BankPairLaw [.bc, .arb, .lines] := by
  intro s t h hs
  have hb : t.bc = s.bc := h .bc (by simp)
  have ha : t.arb = s.arb := h .arb (by simp)
  have hr : ∀ n, t.running n = s.running n := running_congr (h .lines (by simp))
  simpa only [BankPairLaw, CopyClaimLaw, hb, ha, hr] using hs

/-- The law rests on bank control, the copy's part of the arbiter and the running lines: adoptions of lines keep it, as long as
every other member runs on. -/
theorem ofAdopts {leave : Line → Prop} {s t : State} (h : BankPairLaw s) (k : Adopts leave s t)
    (hc : t.copyPart = s.copyPart)
    (hr : ∀ n, s.running n = true → ¬ leave n → t.running n = true) : BankPairLaw t := by
  obtain ⟨⟨hclaim, hstep⟩, hmembers, hpair⟩ := h
  simp only [State.copyPart, Prod.mk.injEq] at hc
  have active : t.bc.active = s.bc.active := by rw [k.bc]
  have staged : t.bc.staged = s.bc.staged := by unfold BankControl.staged; rw [active]
  have index : t.bc.copyIndex = s.bc.copyIndex := by rw [k.bc]
  have last_pending : s.lastLeave leave → s.bc.pair = .commitPending := by
    rintro ⟨⟨n, hn⟩, -⟩
    cases hp : s.bc.pair with
    | commitPending => rfl
    | stable | copying => rw [hp] at hpair; rw [(hpair n).2] at hn; cases hn
  obtain ⟨sent, -, hlast, hnot⟩ := k.sends
  have copying : s.bc.pair = .copying → t.bc.pair = .copying := fun hp =>
    (hnot (fun hl => by rw [last_pending hl] at hp; cases hp)).1.trans hp
  refine ⟨⟨fun i hi => ?_, fun i hi => ?_⟩, fun n hn => ?_, ?_⟩
  · obtain ⟨hp, he⟩ := hclaim i (by rw [← hc.1]; exact hi)
    exact ⟨copying hp, by rw [he, index]⟩
  · have hs := Arbiter.liveStep_eq_some.mp (hc.2 ▸ Arbiter.liveStep_eq_some.mpr hi)
    obtain ⟨hp, he, hno⟩ := hstep i hs
    exact ⟨copying hp, by rw [he, index], by rw [hc.1, hno]⟩
  · obtain ⟨hmem, hstay⟩ := (k.members n).mp hn
    exact hr n (hmembers n hmem) hstay
  · have none_left : s.bc.pair ≠ .commitPending → ∀ n, t.bc.current.get n = t.bc.active
        ∧ t.bc.adoptionSet.get n = false := by
      intro hp n
      have out : s.bc.adoptionSet.get n = false ∧ s.bc.current.get n = s.bc.active := by
        cases hs : s.bc.pair with
        | commitPending => exact absurd hs hp
        | stable | copying => rw [hs] at hpair; exact ⟨(hpair n).2, (hpair n).1⟩
      refine ⟨by rw [k.others n (by simp [out.1]), active, out.2], ?_⟩
      rw [Bool.eq_false_iff]
      intro hmem
      rw [((k.members n).mp hmem).1] at out; cases out.1
    by_cases hp : s.bc.pair = .commitPending
    · rw [hp] at hpair
      obtain ⟨⟨m, hm⟩, hcur⟩ := hpair
      have current : ∀ n, t.bc.current.get n = if t.bc.adoptionSet.get n then t.bc.staged else t.bc.active := by
        intro n
        by_cases hmem : s.bc.adoptionSet.get n = true
        · by_cases hl : leave n
          · rw [k.adopted n hmem hl, if_neg (by rw [k.members]; exact fun h => h.2 hl), active]
          · rw [k.others n (fun h => hl h.2), if_pos ((k.members n).mpr ⟨hmem, hl⟩), hcur, if_pos hmem, staged]
        · rw [k.others n (fun h => hmem h.1), if_neg (by rw [k.members]; exact fun h => hmem h.1), hcur, if_neg hmem,
            active]
      by_cases hl : s.lastLeave leave
      · rw [(hlast hl).1]
        intro n
        have out : t.bc.adoptionSet.get n = false := by
          rw [Bool.eq_false_iff]
          intro hmem
          obtain ⟨hmem, hstay⟩ := (k.members n).mp hmem
          exact hstay (hl.2 n hmem)
        exact ⟨by rw [current, out]; rfl, out⟩
      · rw [(hnot hl).1, hp]
        refine ⟨?_, current⟩
        by_contra hno
        refine hl ⟨⟨m, hm⟩, fun n hn => ?_⟩
        by_contra hstay
        exact hno ⟨n, (k.members n).mpr ⟨hn, hstay⟩⟩
    · rw [(hnot (fun hl => hp (last_pending hl))).1]
      cases hs : s.bc.pair with
      | commitPending => exact absurd hs hp
      | stable | copying => exact none_left hp

/-- What leaves bank control and the copy's part of the arbiter and stops no line. -/
theorem unchanged {s t : State} (h : BankPairLaw s) (hb : t.bc = s.bc := by simp)
    (hc : t.copyPart = s.copyPart := by simp [State.copyPart])
    (hr : ∀ n, s.running n = true → t.running n = true := by simp [State.running]) : BankPairLaw t := by
  have elsewhere : BankPairLaw ((s.withEvq t.evq).withIrq t.irq) := h
  exact elsewhere.ofAdopts (.same hb rfl rfl) hc (fun n hn _ => hr n hn)

theorem keptByLineEvents : KeptByLineEvents BankPairLaw where
  count n s h := h.unchanged
  begins n s h := h.unchanged
  verifies p k s _ hl _ _ h := by
    refine h.unchanged (t := verifying p.line k s) rfl rfl fun n hn => ?_
    have hne : n ≠ p.line := by
      rintro rfl
      simp only [State.receiver] at hl
      simp [State.running, LineUnit.running, hl] at hn
    rw [State.running, verifying_lines, if_neg hne]; exact hn
  hunts p s hv h := by
    refine h.unchanged (t := enterReceiver p.line .hunt s) rfl rfl fun n hn => ?_
    have hne : n ≠ p.line := by
      rintro rfl
      simp only [State.receiver] at hv
      simp [State.running, LineUnit.running, hv] at hn
    rw [State.running, enterReceiver_lines, if_neg hne]; exact hn
  loses p tx s _ _ h := by
    refine h.ofAdopts (.enterLost p.line tx s) ?_ fun n hn hne => ?_
    · rw [State.copyPart, enterLost_arb, Arbiter.withdrawn_liveStep]; rfl
    · rw [State.running, (enterLost_rest p.line n tx s).1, if_neg hne]; exact hn
  locks n s hl h := by
    refine h.ofAdopts (.lock n s) (by simp [State.copyPart]) fun m hm _ => ?_
    rw [State.running, lock_lines]; split
    · next he => subst he; simp_all [State.running, LineUnit.running]
    · exact hm
  rearms p e s _ _ _ h := by
    refine h.unchanged (by simp) (by simp [State.copyPart]) fun n hn => ?_
    rw [State.running, rearm_lines]; split
    · next he => subst he; exact hn
    · exact hn
  receives p frame short s _ h := by
    refine h.ofAdopts (.receiveBoundary p.line frame short s) (by simp [State.copyPart]) fun n hn _ => ?_
    rw [State.running, receiveBoundary_lines]; split
    · next he => rw [← he.1]; exact hn
    · exact hn
  transmits n s _ h := by
    refine h.ofAdopts (.transmitBoundary n s) ?_ fun m hm _ => by simpa [State.running] using hm
    rw [State.copyPart, transmitBoundary_arb]
    exact congrArg (Prod.mk _) (Arbiter.withdrawn_liveStep n s.arb)
  hostBounds s _ h := h.ofAdopts (.hostBoundary s) (by simp [State.copyPart]) fun m hm _ => by simpa [State.running] using hm
  starts g k s h := h

/-! ### Table memory -/

/-- The claims of a copy may change, as long as their law holds. -/
theorem ofClaims {s t : State} (h : BankPairLaw s) (hc : CopyClaimLaw t) (hb : t.bc = s.bc := by simp)
    (hr : ∀ n, t.running n = s.running n := by simp [State.running]) : BankPairLaw t := by
  obtain ⟨-, hmembers, hpair⟩ := h
  refine ⟨hc, fun n hn => ?_, ?_⟩
  · rw [hr]; exact hmembers n (by rw [← hb]; exact hn)
  · rw [hb]; exact hpair

theorem arbiterGrant {s : State} (h : BankPairLaw s) : BankPairLaw (arbiterGrant s) := by
  unfold Machine.arbiterGrant
  split
  · exact h
  next hgrant =>
  split
  · exact h.unchanged rfl (by simp [State.copyPart, Arbiter.liveStep, loadGrant, hgrant]) (fun _ h => h)
  split
  · next op _ =>
    exact h.unchanged rfl (by cases op <;> simp [State.copyPart, Arbiter.liveStep, hostGrant, hgrant]) (fun _ h => h)
  split
  · next i hclaim =>
    refine h.ofClaims ⟨fun j hj => (by cases hj), fun j hj => ?_⟩ rfl (fun _ => rfl)
    obtain ⟨hp, hi⟩ := h.1.1 i hclaim
    cases hj; exact ⟨hp, hi, rfl⟩
  · exact h

theorem loadComplete_running (n : Line) (s : State) : (loadComplete s).running n = s.running n := by
  have fixed : ∀ y t, (fixFrame y t).running n = t.running n := by
    intro y t
    rw [State.running, fixFrame_lines]; split
    · next h => rw [State.running, h.1]; rfl
    · rfl
  unfold Machine.loadComplete; split
  · split
    · rw [fixed]; exact running_congr (by simp) n
    · rfl
  all_goals rfl

theorem loadComplete {s : State} (h : BankPairLaw s) : BankPairLaw (loadComplete s) := by
  by_cases hl : ∃ y p live, s.arb.grant = some (.load y p live)
  · obtain ⟨y, p, live, hg⟩ := hl
    refine h.unchanged (by simp) ?_ fun n hn => ?_
    · simp [State.copyPart, loadComplete_arb hg, Arbiter.liveStep, hg]
    · rw [loadComplete_running]; exact hn
  · rw [loadComplete_of_no_load (fun y p live hg => hl ⟨y, p, live, hg⟩)]; exact h

/-- A copy that advances claims its next index, and one that ends leaves every line on the active bank. -/
theorem advanceCopy {s : State} (h : BankPairLaw s) (hp : s.bc.pair = .copying) (hg : s.arb.grant = none)
    (hc : s.arb.copyClaim = none) :
    BankPairLaw (advanceCopy s) := by
  obtain ⟨⟨hclaim, -⟩, hmembers, hpair⟩ := h
  rw [hp] at hpair
  unfold Machine.advanceCopy; dsimp only; split
  · refine ⟨⟨fun i hi => ⟨hp, ?_⟩, fun i hi => ?_⟩, hmembers, ?_⟩
    · cases hi; rfl
    · rw [show s.arb.grant = some (.copyStep i true) from hi] at hg; cases hg
    · simpa [hp] using hpair
  · have idle : CopyClaimLaw (completeCopy (s.withBc { s.bc with copyIndex := s.bc.copyIndex + 1 })) := by
      constructor <;> intro i hi <;> simp [hg, hc] at hi
    have stable : (completeCopy (s.withBc { s.bc with copyIndex := s.bc.copyIndex + 1 })).bc
        = { s.bc with copyIndex := s.bc.copyIndex + 1, pair := .stable, stagedValid := true } := by
      simp [completeCopy]
    refine ⟨idle, fun n hn => ?_, ?_⟩
    · rw [running_congr (by simp) n (s := s)]
      exact hmembers n (by rw [stable] at hn; exact hn)
    · rw [stable]; exact hpair

theorem copyStepComplete {s : State} (h : BankPairLaw s) : BankPairLaw (copyStepComplete s) := by
  unfold Machine.copyStepComplete; split
  · next i live hg =>
    cases live with
    | false => exact h.unchanged (by simp) (by simp [State.copyPart, Arbiter.liveStep, freePort_arb, hg]) (by simp [State.running])
    | true =>
      obtain ⟨hp, hi, hno⟩ := h.1.2 i hg
      have freed : BankPairLaw (freePort (s.withBank s.bc.staged
          (Bank.write (s.bank s.bc.staged) i (Bank.read (s.bank s.bc.active) i)))) :=
        h.ofClaims ⟨fun j hj => by simp [freePort_arb, hno] at hj, fun j hj => by simp [freePort_arb] at hj⟩
      exact freed.advanceCopy (by simpa using hp) (by simp [freePort_arb]) (by simp [freePort_arb, hno])
  all_goals exact h

/-! ### The host's accesses -/

/-- A line that stops if it runs, while no other line is touched. -/
theorem stops {n : Line} {s t : State} (h : BankPairLaw s) (k : Adopts (fun m => m = n ∧ s.running n = true) s t)
    (ha : t.arb = (stopIfRunning n s).arb) (hl : ∀ m, m ≠ n → t.lines.get m = s.lines.get m) : BankPairLaw t := by
  refine h.ofAdopts k ?_ fun m hm hstay => ?_
  · rw [State.copyPart, ha, stopIfRunning_arb]; split
    · exact congrArg (Prod.mk _) (Arbiter.withdrawn_liveStep n s.arb)
    · rfl
  · have hne : m ≠ n := by
      rintro rfl
      exact hstay ⟨rfl, hm⟩
    rw [State.running, hl m hne]; exact hm

theorem copy {s : State} (h : BankPairLaw s) : BankPairLaw (copy s) := by
  obtain ⟨claims, hmembers, hpair⟩ := h
  unfold Machine.copy; split
  · exact ⟨claims, hmembers, hpair⟩
  · next hp =>
    have hp : s.bc.pair = .stable := not_not.mp hp
    rw [hp] at hpair
    refine ⟨⟨fun i hi => ?_, fun i hi => ?_⟩, hmembers, hpair⟩
    · cases hi; exact ⟨rfl, rfl⟩
    · have := (claims.2 i hi).1
      rw [hp] at this; cases this

theorem commit {s : State} (h : BankPairLaw s) : BankPairLaw (commit s) := by
  obtain ⟨hcopy, hmembers, hpair⟩ := h
  unfold Machine.commit; split
  · exact ⟨hcopy, hmembers, hpair⟩
  next hp =>
  split
  · exact ⟨hcopy, hmembers, hpair⟩
  · have hp : s.bc.pair = .stable := not_not.mp hp
    rw [hp] at hpair
    have claims : CopyClaimLaw (acceptCommit s) := by
      refine ⟨fun i hi => ?_, fun i hi => ?_⟩ <;> rw [show (acceptCommit s).arb = s.arb by simp] at hi
      · have := (hcopy.1 i hi).1
        rw [hp] at this; cases this
      · have := (hcopy.2 i hi).1
        rw [hp] at this; cases this
    have member : ∀ n, (acceptCommit s).bc.adoptionSet.get n = s.running n := by
      intro n; simp [acceptCommit_bc, State.runningSet]
    refine ⟨claims, fun n hn => ?_, ?_⟩
    · rw [running_congr (by simp) n (s := s), ← member]; exact hn
    · by_cases hrun : ∃ n, s.running n = true
      · rw [acceptCommit_pair_of_running hrun]
        refine ⟨hrun.imp fun n hn => (member n).trans hn, fun n => ?_⟩
        rw [member]; split
        · next hn =>
          rw [(acceptCommit_awaits_boundary hn).1, (hpair n).1]
          cases ha : s.bc.active <;> simp [acceptCommit_bc, BankControl.staged, BankName.other, ha]
        · next hn => exact (acceptCommit_adopts (by simpa using hn)).1
      · have hrun : ∀ n, s.running n = false := fun n => by
          rw [Bool.eq_false_iff]; exact fun h => hrun ⟨n, h⟩
        rw [acceptCommit_pair_of_none_running hrun]
        exact fun n => acceptCommit_adopts (hrun n)

theorem exchangeRestart {s : State} (h : BankPairLaw s) : BankPairLaw (exchangeRestart s) := by
  obtain ⟨-, -, hpair⟩ := h
  have none_live : ∀ i, (s.arb.grant.map Grant.restarted) ≠ some (.copyStep i true) := by
    intro i
    cases s.arb.grant with
    | none => exact nofun
    | some g => cases g <;> simp [Grant.restarted]
  have bank : s.bc.restarted.pair = .stable ∧ (∀ n, s.bc.restarted.adoptionSet.get n = false)
      ∧ ∀ n, s.bc.restarted.current.get n = s.bc.restarted.active := by
    unfold BankControl.restarted
    cases hp : s.bc.pair with
    | stable | copying =>
      rw [hp] at hpair
      exact ⟨rfl, fun n => by simp [LineSet.empty], fun n => (hpair n).1⟩
    | commitPending =>
      rw [hp] at hpair
      refine ⟨rfl, fun n => by simp [LineSet.empty], fun n => ?_⟩
      simp only [Tab.get_of, hpair.2]; split <;> simp_all
  obtain ⟨hp, hset, hcur⟩ := bank
  refine ⟨⟨fun i hi => (by cases hi), fun i hi => absurd hi (none_live i)⟩, fun n hn => ?_, ?_⟩
  · rw [show (Machine.exchangeRestart s).bc = s.bc.restarted from rfl, hset] at hn; cases hn
  · rw [show (Machine.exchangeRestart s).bc = s.bc.restarted from rfl, hp]
    exact fun n => ⟨hcur n, hset n⟩

/-- A release takes no line out of LOCKED. -/
theorem releaseLines (named : Line → Bool) {s : State} (h : BankPairLaw s) : BankPairLaw (releaseLines named s) := by
  refine h.unchanged (by simp) (by simp [State.copyPart]) fun m hm => ?_
  rw [State.running, (releaseLines_spec _ s m).1]; split
  · split
    · next hl => simp [State.running, LineUnit.running, hl] at hm
    · exact hm
  · exact hm

theorem takeHeld (c : Instr) {s : State} (h : BankPairLaw s) : BankPairLaw (takeHeld c s) := by
  cases c
  case exchangeRestart => exact h.exchangeRestart
  case commit => exact h.commit
  case copy => exact h.copy
  case lineEnable v =>
    refine lineEnable_keeps (fun n t he ht => ?_) v s h
    refine ht.unchanged (by simp) (by simp [State.copyPart]) fun m hm => ?_
    have hne : m ≠ n := by
      rintro rfl
      simp [State.running, LineUnit.running, he] at hm
    rw [State.running, enableLine_lines, if_neg (fun h => hne h.1)]; exact hm
  case lineDisable v =>
    refine lineDisable_keeps (fun n t _ ht => ht.stops (.disableLine n t) (disableLine_arb n t) fun m hne => ?_) v s h
    rw [disableLine_lines, if_neg hne]
  case lineRestart v =>
    refine lineRestart_keeps (fun n t _ ht => ht.stops (.restartLine n t) (restartLine_arb n t) fun m hne => ?_) v s h
    rw [restartLine_lines, if_neg hne]
  case fgStop v =>
    refine fgStop_keeps (fun n g t _ _ ht => ht.stops (.haltLine n t) (haltLine_arb n t) fun m hne => ?_)
      (fun g t ht => ht) v s h
    rw [haltLine_lines, if_neg hne]
  case lineRelease v | groupRelease v => exact h.releaseLines _
  case groupPolicyWrite v => exact h.unchanged (t := groupPolicyWrite v s)
  case tpRead =>
    have effect := tpRead_effect s
    change BankPairLaw (tpRead s)
    generalize tpRead s = t at effect ⊢
    cases effect with
    | refused => exact h.unchanged
    | claims => exact h.unchanged (by simp) rfl
    | reads => exact h.unchanged
  case tpWrite =>
    have effect := tpWrite_effect s
    change BankPairLaw (tpWrite s)
    generalize tpWrite s = t at effect ⊢
    cases effect with
    | refused => exact h.unchanged
    | claims => exact h.unchanged (by simp) rfl
    | config n c _ _ =>
      refine h.unchanged (by simp) (by simp [State.copyPart]) fun m hm => ?_
      rw [running_congr (by simp) m (s := writeConfig n c s), State.running, writeConfig_lines]; split
      · next he => rw [he] at hm; exact hm
      · exact hm
  all_goals exact restsOn.keep (takeHeld_onlyChanges _ _) h

theorem kept : Kept BankPairLaw :=
  keptByLineEvents.kept restsOn
    (bit := fun n b s h => restsOn.keep (bitClock_onlyChanges n b s) h)
    (reset := ⟨⟨fun i hi => (by cases hi), fun i hi => (by cases hi)⟩, by decide, by
      change ∀ n : Line, State.reset.bc.current.get n = State.reset.bc.active ∧ State.reset.bc.adoptionSet.get n = false
      decide⟩)
    (grant := fun s h => h.arbiterGrant)
    (load := fun s h => h.loadComplete)
    (copyStep := fun s h => h.copyStepComplete)
    (mapRead := fun e s hg h => h.unchanged (by simp) (by simp [State.copyPart, Arbiter.liveStep, finishMapRead, hg]))
    (mapWrite := fun e s hg h => h.unchanged (by simp) (by simp [State.copyPart, Arbiter.liveStep, finishMapWrite, hg]))
    (timeOut := fun s h => h.unchanged (by simp) (by simp [State.copyPart, Arbiter.liveStep, timeOut]))
    (access := fun c _ _ h => h.takeHeld c)

end BankPairLaw

/-- Settles O54: a line leaves the adoption set with its adoption, and no member of it stops without one. -/
theorem linesReadTheBankOfThePairState : Obligations.LinesReadTheBankOfThePairState :=
  fun _ _ h hstep => BankPairLaw.kept.step h hstep

end Sys2Proof.Machine
end

section
set_option Elab.async false -- one proof after the other, within the check's limit on threads
/-! The staged bank below the copy index (R107): the settling of obligation O55. -/

namespace Sys2Proof.Machine

/-- A host WRITE to the staged bank is in flight with the entry. -/
def Arbiter.WritesEntry (a : Arbiter) (e : MapEntry) : Prop :=
  a.hostClaim = some (.write e) ∨ a.grant = some (.hostWrite e)

theorem Arbiter.withdrawn_writesEntry {n : Line} {a : Arbiter} {e : MapEntry} :
    (a.withdrawn n).WritesEntry e ↔ a.WritesEntry e := by
  simp only [Arbiter.WritesEntry, Arbiter.withdrawn]
  cases a.grant with
  | none => rfl
  | some g => cases g <;> simp [Grant.killLoad]

/-- With RDY active no host WRITE is in flight. -/
theorem not_writesEntry_of_ready {s : State} (h : s.stretched = false) (e : MapEntry) : ¬ s.arb.WritesEntry e := by
  simp only [State.stretched, Arbiter.hostInFlight, Bool.or_eq_false_iff, Option.isSome_eq_false_iff,
    Option.isNone_iff_eq_none] at h
  obtain ⟨hclaim, hgrant⟩ := h
  rintro (hw | hw)
  · rw [hclaim] at hw; cases hw
  · rw [hw] at hgrant; cases hgrant

theorem BankName.other_ne (b : BankName) : b.other ≠ b := by cases b <;> decide

/-- The state after the write of a copy step, with the port free (R107). -/
def copied (i : Nat) (s : State) : State :=
  freePort (s.withBank s.bc.staged (Bank.write (s.bank s.bc.staged) i (Bank.read (s.bank s.bc.active) i)))

namespace CopyLaw

theorem restsOn : RestsOn CopyLaw [.bankA, .bankB, .bc, .arb] := by
  intro s t h hs
  have hA : t.bankA = s.bankA := h .bankA (by simp)
  have hB : t.bankB = s.bankB := h .bankB (by simp)
  have hb : t.bc = s.bc := h .bc (by simp)
  have ha : t.arb = s.arb := h .arb (by simp)
  have hbank : ∀ n, t.bank n = s.bank n := by intro n; cases n <;> simp [State.bank, hA, hB]
  simpa only [CopyLaw, BanksCanonical, StagedWriteLaw, hA, hB, hb, ha, hbank] using hs

/-- The law where the banks are kept: no new write to the staged bank is in flight outside STABLE, and no copy begins. -/
theorem ofBanks {s t : State} (h : CopyLaw s) (hw : ∀ e, t.arb.WritesEntry e → t.bc.pair = .stable)
    (hp : t.bc.pair = .copying → s.bc.pair = .copying ∧ t.bc.active = s.bc.active ∧ t.bc.copyIndex = s.bc.copyIndex)
    (hA : t.bankA = s.bankA := by simp) (hB : t.bankB = s.bankB := by simp) : CopyLaw t := by
  obtain ⟨hcanon, -, hcopy⟩ := h
  have hbank : ∀ n, t.bank n = s.bank n := by intro n; cases n <;> simp [State.bank, hA, hB]
  refine ⟨by simpa only [BanksCanonical, hA, hB] using hcanon, hw, fun ht => ?_⟩
  obtain ⟨hs, ha, hi⟩ := hp ht
  have hst : t.bc.staged = s.bc.staged := by simp only [BankControl.staged, ha]
  rw [hi, hst, ha]
  simpa only [hbank] using hcopy hs

/-- What leaves the banks and their control and places no write. -/
theorem unchanged {s t : State} (h : CopyLaw s) (hb : t.bc = s.bc := by simp)
    (hw : ∀ e, t.arb.WritesEntry e → s.arb.WritesEntry e := by simp)
    (hA : t.bankA = s.bankA := by simp) (hB : t.bankB = s.bankB := by simp) : CopyLaw t :=
  h.ofBanks (fun e he => by rw [hb]; exact h.2.1 e (hw e he)) (fun hp => by rw [hb] at hp ⊢; exact ⟨hp, rfl, rfl⟩) hA hB

/-- Adoptions begin no copy, and a commit that completes leaves STABLE behind. -/
theorem ofAdopts {leave : Line → Prop} {s t : State} (h : CopyLaw s) (k : Adopts leave s t)
    (hw : ∀ e, t.arb.WritesEntry e → s.arb.WritesEntry e)
    (hA : t.bankA = s.bankA := by simp) (hB : t.bankB = s.bankB := by simp) : CopyLaw t := by
  have pair : t.bc.pair = .stable ∨ t.bc.pair = s.bc.pair := by
    obtain ⟨sent, -, hlast, hnot⟩ := k.sends
    by_cases hl : s.lastLeave leave
    · exact .inl (hlast hl).1
    · exact .inr (hnot hl).1
  refine h.ofBanks (fun e he => ?_) (fun hp => ⟨?_, by rw [k.bc], by rw [k.bc]⟩) hA hB
  · exact pair.elim id fun hp => hp.trans (h.2.1 e (hw e he))
  · exact pair.elim (fun hs => by rw [hs] at hp; cases hp) fun hs => hs ▸ hp

theorem keptByLineEvents : KeptByLineEvents CopyLaw where
  count n s h := h.unchanged
  begins n s h := h.unchanged
  verifies p k s _ _ _ _ h := h
  hunts p s _ h := h.unchanged
  loses p tx s _ _ h := h.ofAdopts (.enterLost p.line tx s)
    (fun e he => by rw [enterLost_arb] at he; exact Arbiter.withdrawn_writesEntry.mp he)
  locks n s _ h := h.unchanged
  rearms p e s _ _ _ h := h.unchanged
  receives p frame short s _ h := h.unchanged
  transmits n s _ h := h.ofAdopts (.transmitBoundary n s)
    (fun e he => by rw [transmitBoundary_arb] at he; exact Arbiter.withdrawn_writesEntry.mp he)
  hostBounds s _ h := h.unchanged
  starts g k s h := h

/-! ### Table memory -/

theorem arbiterGrant {s : State} (h : CopyLaw s) : CopyLaw (arbiterGrant s) := by
  refine h.unchanged (by simp) fun e he => ?_
  unfold Machine.arbiterGrant at he
  split at he
  · exact he
  split at he
  · exact he.imp id (fun hg => by cases hg)
  split at he
  · next op hop =>
    obtain hc | hg := he
    · cases hc
    · cases op with
      | read => cases hg
      | write f => cases hg; exact .inl hop
  split at he
  · exact he.imp id (fun hg => by cases hg)
  · exact he

theorem loadComplete {s : State} (h : CopyLaw s) : CopyLaw (loadComplete s) := by
  refine h.unchanged (by simp) fun e he => ?_
  by_cases hl : ∃ y p live, s.arb.grant = some (.load y p live)
  · obtain ⟨y, p, live, hg⟩ := hl
    rw [loadComplete_arb hg] at he
    exact he.imp id (fun hn => by cases hn)
  · rw [loadComplete_of_no_load (fun y p live hg => hl ⟨y, p, live, hg⟩)] at he; exact he

/-- A host WRITE is made in STABLE, where no copy is in progress. -/
theorem finishMapWrite {s : State} (h : CopyLaw s) {e : MapEntry} (hg : s.arb.grant = some (.hostWrite e)) :
    CopyLaw (finishMapWrite e s) := by
  obtain ⟨hcanon, hwrite, -⟩ := h
  have hp : s.bc.pair = .stable := hwrite e (.inr hg)
  have canon : BanksCanonical (s.withBank s.bc.staged (Bank.write (s.bank s.bc.staged) s.tp.index.toNat e)) := by
    obtain ⟨hA, hB⟩ := hcanon
    cases s.bc.staged
    · exact ⟨Bank.write_wf hA, hB⟩
    · exact ⟨hA, Bank.write_wf hB⟩
  have banks : (Machine.finishMapWrite e s).bankA
        = (s.withBank s.bc.staged (Bank.write (s.bank s.bc.staged) s.tp.index.toNat e)).bankA
      ∧ (Machine.finishMapWrite e s).bankB
        = (s.withBank s.bc.staged (Bank.write (s.bank s.bc.staged) s.tp.index.toNat e)).bankB := by
    simp only [Machine.finishMapWrite, tpEnd_frame]
    cases s.bc.staged <;> exact ⟨rfl, rfl⟩
  have stable : (Machine.finishMapWrite e s).bc.pair = .stable := by simpa [Machine.finishMapWrite] using hp
  refine ⟨?_, fun _ _ => stable, fun hc => by rw [stable] at hc; cases hc⟩
  simpa only [BanksCanonical, banks] using canon

/-- After the write of a copy step the staged bank agrees with the active one at its index, and where it agreed before. -/
theorem copied_reads {s : State} (hc : BanksCanonical s) (i k : Nat)
    (h : Bank.read (s.bank s.bc.staged) k = Bank.read (s.bank s.bc.active) k ∨ k = i) :
    Bank.read ((copied i s).bank s.bc.staged) k = Bank.read ((copied i s).bank s.bc.active) k := by
  have bank : ∀ b, (copied i s).bank b = (s.withBank s.bc.staged
      (Bank.write (s.bank s.bc.staged) i (Bank.read (s.bank s.bc.active) i))).bank b := fun b => by cases b <;> rfl
  have hne : s.bc.active ≠ s.bc.staged := (BankName.other_ne s.bc.active).symm
  rw [bank, bank, bank_withBank_write s hc _ i _ s.bc.active, if_neg (fun h => hne h.1), bank_withBank_write s hc]
  by_cases hk : k = i
  · simp [hk]
  · rw [if_neg (fun h => hk h.2)]; exact h.resolve_right hk

theorem copied {s : State} (h : CopyLaw s) (i : Nat) : CopyLaw (copied i s) := by
  obtain ⟨hcanon, hwrite, hcopy⟩ := h
  have hb : (Machine.copied i s).bc = s.bc := by simp [Machine.copied]
  refine ⟨?_, fun e he => ?_, fun hp k hk => ?_⟩
  · obtain ⟨hA, hB⟩ := hcanon
    unfold BanksCanonical Machine.copied
    cases s.bc.staged
    · exact ⟨Bank.write_wf hA, hB⟩
    · exact ⟨hA, Bank.write_wf hB⟩
  · rw [hb]
    exact hwrite e (.inl (by simpa [Machine.copied, freePort_arb] using he))
  · rw [hb] at hp hk ⊢
    exact copied_reads hcanon i k (.inl (hcopy hp k hk))

/-- A copy advances past an index at which the banks agree. -/
theorem advanceCopy {s : State} (h : CopyLaw s)
    (hi : Bank.read (s.bank s.bc.staged) s.bc.copyIndex = Bank.read (s.bank s.bc.active) s.bc.copyIndex)
    (hp : s.bc.pair = .copying) : CopyLaw (advanceCopy s) := by
  obtain ⟨hcanon, hwrite, hcopy⟩ := h
  have no_write : ∀ e, ¬ s.arb.WritesEntry e := fun e he => by rw [hwrite e he] at hp; cases hp
  unfold Machine.advanceCopy; dsimp only; split
  · refine ⟨hcanon, fun e he => absurd he (no_write e), fun _ k hk => ?_⟩
    obtain hk | hk := Nat.lt_succ_iff_lt_or_eq.mp hk
    · exact hcopy hp k hk
    · rw [hk]; exact hi
  · refine ⟨by simpa [BanksCanonical, completeCopy] using hcanon, fun e he => ?_, fun hc => ?_⟩
    · simp [completeCopy]
    · simp [completeCopy] at hc

/-- The entry that a copy step writes makes the staged bank agree with the active one at one more index. -/
theorem copyStepComplete {s : State} (hb : BankPairLaw s) (h : CopyLaw s) : CopyLaw (copyStepComplete s) := by
  unfold Machine.copyStepComplete; split
  · next i live hg =>
    have freed := h.copied i
    cases live with
    | false => exact freed
    | true =>
      obtain ⟨hp, hi, -⟩ := hb.1.2 i hg
      have hb : (Machine.copied i s).bc = s.bc := by simp [Machine.copied]
      refine freed.advanceCopy ?_ (by rw [hb]; exact hp)
      rw [hb, ← hi]
      exact copied_reads h.1 i i (.inr rfl)
  all_goals exact h

/-! ### The host's accesses -/

theorem stops_writesEntry {n : Line} {s t : State} (ha : t.arb = (stopIfRunning n s).arb) (e : MapEntry)
    (he : t.arb.WritesEntry e) : s.arb.WritesEntry e := by
  rw [ha, stopIfRunning_arb] at he
  split at he
  · exact Arbiter.withdrawn_writesEntry.mp he
  · exact he

theorem takeHeld (c : Instr) {s : State} (hr : s.stretched = false) (h : CopyLaw s) : CopyLaw (takeHeld c s) := by
  have idle := not_writesEntry_of_ready hr
  cases c
  case exchangeRestart =>
    have stable : s.bc.restarted.pair = .stable := by
      unfold BankControl.restarted; cases s.bc.pair <;> rfl
    refine h.ofBanks (t := exchangeRestart s) (fun _ _ => stable) (fun hp => ?_) rfl rfl
    rw [show (exchangeRestart s).bc = s.bc.restarted from rfl, stable] at hp; cases hp
  case commit =>
    refine h.ofBanks (t := commit s) (fun e he => absurd (by simpa using he) (idle e)) (fun hp => ?_)
    unfold commit at hp ⊢
    split at hp
    · next hc => exact ⟨hp, by simp [hc], by simp [hc]⟩
    split at hp
    · next hc hv => exact ⟨hp, by simp [hc, hv], by simp [hc, hv]⟩
    · rw [acceptCommit_bc] at hp
      dsimp only at hp
      split at hp <;> cases hp
  case copy =>
    change CopyLaw (copy s)
    unfold copy
    split
    · exact ⟨h.1, h.2.1, h.2.2⟩
    · exact ⟨h.1, fun e he => absurd he (idle e), fun _ i hi => absurd hi (Nat.not_lt_zero i)⟩
  case lineDisable v =>
    exact lineDisable_keeps (fun n t _ ht => ht.ofAdopts (.disableLine n t) (stops_writesEntry (disableLine_arb n t))) v s h
  case lineRestart v =>
    exact lineRestart_keeps (fun n t _ ht => ht.ofAdopts (.restartLine n t) (stops_writesEntry (restartLine_arb n t))) v s h
  case fgStop v =>
    exact fgStop_keeps (fun n g t _ _ ht => ht.ofAdopts (.haltLine n t) (stops_writesEntry (haltLine_arb n t)))
      (fun g t ht => ht) v s h
  case tpRead =>
    have effect := tpRead_effect s
    change CopyLaw (tpRead s)
    generalize tpRead s = t at effect ⊢
    cases effect with
    | refused => exact h.unchanged
    | claims =>
      refine h.unchanged (by simp) fun e he => he.imp (fun hc => ?_) id
      cases hc
    | reads => exact h.unchanged
  case tpWrite =>
    have effect := tpWrite_effect s
    change CopyLaw (tpWrite s)
    generalize tpWrite s = t at effect ⊢
    cases effect with
    | refused => exact h.unchanged
    | claims e _ hp =>
      exact h.ofBanks (fun _ _ => by simpa using hp) (fun ht => by simp [hp] at ht)
    | config n c _ _ => exact h.unchanged
  all_goals exact restsOn.keep (takeHeld_onlyChanges _ _) h

end CopyLaw

/-- The law of the copy with that of the bank pair. -/
def CopyingLaw (s : State) : Prop := BankPairLaw s ∧ CopyLaw s

theorem CopyingLaw.kept : Kept CopyingLaw :=
  (BankPairLaw.keptByLineEvents.and CopyLaw.keptByLineEvents).kept (ds := [.bankA, .bankB, .bc, .arb, .lines])
    (fun s t h hs => ⟨BankPairLaw.restsOn s t (fun f hf => h f (by revert f; decide)) hs.1,
      CopyLaw.restsOn s t (fun f hf => h f (by revert f; decide)) hs.2⟩)
    (bit := fun n b s h => ⟨BankPairLaw.kept.bit n b s h.1, CopyLaw.restsOn.keep (bitClock_onlyChanges n b s) h.2⟩)
    (reset := ⟨BankPairLaw.kept.reset, ⟨rfl, rfl⟩, fun e he => rfl, fun hp => by cases hp⟩)
    (grant := fun s h => ⟨h.1.arbiterGrant, h.2.arbiterGrant⟩)
    (load := fun s h => ⟨h.1.loadComplete, h.2.loadComplete⟩)
    (copyStep := fun s h => ⟨h.1.copyStepComplete, .copyStepComplete h.1 h.2⟩)
    (mapRead := fun e s hg h => ⟨BankPairLaw.kept.mapRead e s hg h.1,
      h.2.unchanged (by simp) (fun e he => by simpa [Arbiter.WritesEntry, finishMapRead, hg] using he)⟩)
    (mapWrite := fun e s hg h => ⟨BankPairLaw.kept.mapWrite e s hg h.1, h.2.finishMapWrite hg⟩)
    (timeOut := fun s h => ⟨BankPairLaw.kept.timeOut s h.1,
      h.2.unchanged (by simp) (fun e he => by
        refine he.imp (fun hc => ?_) (fun hg => by simpa [timeOut] using hg)
        simp [timeOut] at hc)⟩)
    (access := fun c s hr h => ⟨h.1.takeHeld c, h.2.takeHeld c hr⟩)

/-- Settles O55: host writes stay out of the staged bank while a copy is in progress, and each step of the copy writes the
entry at its index. -/
theorem copiedEntriesEqualTheActiveBank : Obligations.CopiedEntriesEqualTheActiveBank :=
  fun _ _ h hstep => (CopyingLaw.kept.step h hstep).2

end Sys2Proof.Machine
end

section
set_option Elab.async false -- one proof after the other, within the check's limit on threads
/-! The step and the host bus (11 sections 11.1, 11.2 and 11.4): the settling of obligations O1, O2, O3, O7, O9, O33, O37, O39 and
O44. -/

namespace Sys2Proof.Machine

/-! ### The step -/

/-- Settles O1: the equations of `step`. -/
theorem stepRunsFrontCommand : Obligations.StepRunsFrontCommand := by
  refine ⟨fun _ _ _ => rfl, fun s hp hi => ?idle, fun p b rest s hp hi => ?bit⟩
  case idle => simp [step, tick, hp, hi]
  case bit => simp [step, tick, hp, hi]

/-! ### Accesses while RDY is inactive (R176) -/

/-- A well-formed host access is taken, or waits behind those that wait already. -/
theorem exec_of_access {c : Instr} (hc : c.isHostAccess = true) (hw : c.wellFormed = true) (s : State) :
    exec c s = .next (if s.stretched then s.withBus { s.bus with held := s.bus.held ++ [c] } else takeHeld c s) := by
  have next : ∃ t, exec c s = .next t := by
    cases c
    case registerWriteIgnored a v =>
      have hw : writeIgnored a v = true := hw
      exact ⟨_, by simp only [exec, execRegisterWriteIgnored, hw, if_true]; rfl⟩
    all_goals exact ⟨_, rfl⟩
  obtain ⟨t, ht⟩ := next
  rw [ht]
  obtain ⟨he, -⟩ | ⟨-, hs, rfl⟩ | ⟨-, hs, rfl⟩ := exec_cases ht
  · rw [hc] at he; cases he
  · simp [hs]
  · simp [hs]

/-- Settles O2: the two readings of RDY, active and inactive. -/
theorem hostAccessWaitsWhileStretched : Obligations.HostAccessWaitsWhileStretched := by
  refine ⟨fun c s hc hw hs => ?_, fun a s => ⟨fun hs => ?_, fun hs => ?_⟩⟩
  · rw [exec_of_access hc hw, if_pos hs]
  · simp [State.busRead, hs]
  · simp [State.busRead, hs]

/-- The accesses that wait are taken in turn, each on the state that the one before it leaves. -/
theorem takenInOrder_drainHeld (l : List Instr) (h : ∀ c ∈ l, c.isHostAccess = true ∧ c.wellFormed = true) (s : State) :
    TakenInOrder l s (drainHeld l s) := by
  induction l generalizing s with
  | nil => rfl
  | cons c cs ih =>
    obtain ⟨hc, hw⟩ := h c List.mem_cons_self
    unfold drainHeld
    split
    · next hs => exact .inl ⟨hs, rfl⟩
    · next hs =>
      refine .inr ⟨by simpa using hs, takeHeld c s, by rw [exec_of_access hc hw, if_neg hs], ?_⟩
      exact ih (fun d hd => h d (List.mem_cons_of_mem _ hd)) _

/-- A host WRITE that completes leaves the bus. -/
theorem finishMapWrite_withBus (e : MapEntry) (s : State) (b : HostBus) :
    finishMapWrite e (s.withBus b) = (finishMapWrite e s).withBus b := by
  have staged : (s.withBus b).bc.staged = s.bc.staged := rfl
  unfold finishMapWrite
  rw [staged]
  cases s.bc.staged <;> rfl

/-- Settles O3: the three ends of a stretched access all hand the accesses that wait to `drainHeld`. -/
theorem waitingAccessIsTakenWhenReadyReturns : Obligations.WaitingAccessIsTakenWhenReadyReturns := by
  intro s h
  refine ⟨fun e hg => ?_, fun e hg => ?_, fun op hc => ?_⟩
  · refine ⟨_, rfl, ?_⟩
    have hend : mapReadComplete s = drainHeld s.bus.held (finishMapRead e (s.withBus { s.bus with held := [] })) := by
      simp only [mapReadComplete, hg]; rfl
    rw [hend]; exact takenInOrder_drainHeld _ h _
  · refine ⟨_, rfl, ?_⟩
    have hend : mapWriteComplete s = drainHeld s.bus.held (finishMapWrite e (s.withBus { s.bus with held := [] })) := by
      simp only [mapWriteComplete, hg]
      rw [returnReady, finishMapWrite_withBus, show (finishMapWrite e s).bus = s.bus by simp [finishMapWrite]]
    rw [hend]; exact takenInOrder_drainHeld _ h _
  · refine ⟨_, rfl, ?_⟩
    have hend : stretchLimitExpiry s = drainHeld s.bus.held (timeOut (s.withBus { s.bus with held := [] })) := by
      simp only [stretchLimitExpiry, hc]; rfl
    rw [hend]; exact takenInOrder_drainHeld _ h _

/-- Settles O33: with no access waiting the expiry does no more than withdraw the claim. -/
theorem stretchLimitWithdrawsTheClaim : Obligations.StretchLimitWithdrawsTheClaim := by
  refine ⟨fun op s hc hheld hg => ?_, fun s hc => ?_⟩
  · have hend : exec .stretchLimitExpiry s = .next (timeOut s) := by
      show Host.Outcome.next (stretchLimitExpiry s) = _
      rw [stretchLimitExpiry, hc]; dsimp only
      rw [returnReady_none (by simpa [timeOut] using hheld)]
    refine ⟨timeOut s, hend, timeOut_onlyChanges s, rfl, rfl, rfl, ?_⟩
    simp [State.rdy, State.stretched, Arbiter.hostInFlight, timeOut, hg]
  · show Host.Outcome.next (stretchLimitExpiry s) = _
    rw [stretchLimitExpiry, hc]

/-! ### Ignored writes and empty reads (R177) -/

theorem readOnlyAddress_of_listed : ∀ a : BitVec 6,
    a ∈ ([0x00, 0x02, 0x05, 0x0E, 0x0F, 0x17, 0x1B, 0x1C, 0x1D, 0x1E, 0x22, 0x23, 0x25] : List (BitVec 6))
      ∨ 0x26 ≤ a.toNat → readOnlyAddress a = true := by decide

/-- Settles O7: the ignored writes are those of `writeIgnored`, and the empty reads those that `readRegister` does not name. -/
theorem ignoredWritesAndEmptyReads : Obligations.IgnoredWritesAndEmptyReads := by
  refine ⟨fun a v s h hs => ?_, fun a s => ⟨rfl, fun h => ?_⟩⟩
  · have hw : writeIgnored a v = true := by
      obtain h | h | ⟨rfl, h⟩ | ⟨rfl | rfl, h⟩ := h
      · simp [writeIgnored, readOnlyAddress_of_listed a (.inl h)]
      · simp [writeIgnored, readOnlyAddress_of_listed a (.inr h)]
      all_goals
        simp only [List.mem_cons, List.not_mem_nil, or_false, not_or] at h
        simp [writeIgnored, h]
    have taken := exec_of_access (c := .registerWriteIgnored a v) rfl hw s
    rw [taken, if_neg (by simp [hs])]
    rfl
  · obtain h | h := h
    · simp only [List.mem_cons, List.not_mem_nil, or_false] at h
      obtain rfl | rfl | rfl | rfl | rfl | rfl | rfl | rfl | rfl := h <;> rfl
    · unfold readRegister; split <;> simp_all

/-! ### Device reset (R23) -/

/-- Settles O9: the reset state is closed, so its registers can be read. -/
theorem deviceResetGivesResetValues : Obligations.DeviceResetGivesResetValues := by
  refine ⟨fun s => rfl, ?_⟩
  decide

/-! ### Commands that act on one block alone -/

/-- Settles O37: the two branches of `copy`. -/
theorem copyBeginsAtIndexZero : Obligations.CopyBeginsAtIndexZero := by
  intro s hs
  have taken : exec .copy s = .next (copy s) := exec_hostAccess rfl (by simp) hs
  rw [taken]
  refine ⟨fun hp => ?_, fun hp => ?_⟩
  · rw [copy, if_pos hp]
  · rw [copy, if_neg (not_not.mpr hp)]

/-- Settles O39: SUBMIT finds a frame pending, words missing, or neither. -/
theorem insertAndCaptureCommands : Obligations.InsertAndCaptureCommands := by
  intro s hs
  have submitted : exec .submit s = .next (submit s) := exec_hostAccess rfl (by simp) hs
  have popped : ∀ v, exec (.capturePop v) s = .next (capturePop s) := fun v => exec_hostAccess rfl (by simp) hs
  rw [submitted]
  refine ⟨fun hp => ?_, fun hp hlen => ?_, fun hp hlen => ?_, exec_hostAccess rfl (by simp) hs, fun v hc => ?_,
    fun v c rest hc => ?_⟩
  · rw [submit, if_pos (Option.isSome_iff_ne_none.mpr hp)]
  · have hslots : s.host.compose.length < s.hostSlots := hlen
    rw [submit, if_neg (by simp [hp]), if_pos hslots]
  · have hslots : ¬ s.host.compose.length < s.hostSlots := Nat.not_lt.mpr hlen
    rw [submit, if_neg (by simp [hp]), if_neg hslots]; rfl
  · rw [popped, capturePop, hc]
  · rw [popped, capturePop, hc]

/-- Settles O44: each write acts on its own register. -/
theorem queueAndInterruptWrites : Obligations.QueueAndInterruptWrites := by
  intro v s hs
  have taken : ∀ c : Instr, c.isHostAccess = true → (∀ a v, c ≠ .registerWriteIgnored a v) →
      exec c s = .next (takeHeld c s) := fun c hc hne => exec_hostAccess hc hne hs
  refine ⟨?_, taken (.evqCountWrite v) rfl (by simp), ⟨_, taken (.irqStatusWrite v) rfl (by simp), ?_, rfl, ?_⟩,
    ⟨_, taken (.irqEnableWrite v) rfl (by simp), ?_, rfl, ?_⟩⟩
  · rw [taken (.evqPop v) rfl (by simp)]
    simp [takeHeld, evqPop]
  · exact withIrq_onlyChanges s _
  · simp [takeHeld, irqStatusWrite, Word.bit]
  · exact withIrq_onlyChanges s _
  · have mask : ∀ b, b < 16 → (irqMask.getLsbD b = true ↔ b < 4 ∨ (8 ≤ b ∧ b < 12)) := by decide
    intro b hb
    simp [takeHeld, irqEnableWrite, mask b hb]

end Sys2Proof.Machine
end

section
set_option Elab.async false -- one proof after the other, within the check's limit on threads
/-! The accesses of the host bus and their commands (11 sections 11.1 and 11.2): the settling of obligations O4 and O5. -/

namespace Sys2Proof.Machine

open Sys2Proof.Laws in
/-- The access that issues a well-formed command decodes to commands among which it stands, by the lemma of each command. -/
theorem mem_decodeAccess_of_encode (i : Instr) : BusRoundTrip.Statement i :=
  match i with
  | .deviceReset => BusRoundTrip.deviceReset
  | .syncArrival p sm o => BusRoundTrip.syncArrival p sm o
  | .timerExpiry p e => BusRoundTrip.timerExpiry p e
  | .fgFrameStart g sm o => BusRoundTrip.fgFrameStart g sm o
  | .arbiterGrant => BusRoundTrip.arbiterGrant
  | .loadComplete => BusRoundTrip.loadComplete
  | .mapReadComplete => BusRoundTrip.mapReadComplete
  | .mapWriteComplete => BusRoundTrip.mapWriteComplete
  | .copyStepComplete => BusRoundTrip.copyStepComplete
  | .stretchLimitExpiry => BusRoundTrip.stretchLimitExpiry
  | .exchangeRestart => BusRoundTrip.exchangeRestart
  | .commit => BusRoundTrip.commit
  | .copy => BusRoundTrip.copy
  | .lineEnable v => BusRoundTrip.lineEnable v
  | .lineDisable v => BusRoundTrip.lineDisable v
  | .lineRestart v => BusRoundTrip.lineRestart v
  | .enableRefusedRead => BusRoundTrip.enableRefusedRead
  | .fgPeriodWrite g v => BusRoundTrip.fgPeriodWrite g v
  | .fgPhaseWrite g v => BusRoundTrip.fgPhaseWrite g v
  | .fgStart v => BusRoundTrip.fgStart v
  | .fgStop v => BusRoundTrip.fgStop v
  | .groupPolicyWrite v => BusRoundTrip.groupPolicyWrite v
  | .lineRelease v => BusRoundTrip.lineRelease v
  | .groupRelease v => BusRoundTrip.groupRelease v
  | .tpCursorWrite v => BusRoundTrip.tpCursorWrite v
  | .tpControlWrite v => BusRoundTrip.tpControlWrite v
  | .tpDataWrite k v => BusRoundTrip.tpDataWrite k v
  | .tpRead => BusRoundTrip.tpRead
  | .tpWrite => BusRoundTrip.tpWrite
  | .irqStatusWrite v => BusRoundTrip.irqStatusWrite v
  | .irqEnableWrite v => BusRoundTrip.irqEnableWrite v
  | .evqCountWrite v => BusRoundTrip.evqCountWrite v
  | .evqHead0Read => BusRoundTrip.evqHead0Read
  | .evqPop v => BusRoundTrip.evqPop v
  | .insertDataWrite v => BusRoundTrip.insertDataWrite v
  | .submit => BusRoundTrip.submit
  | .discard => BusRoundTrip.discard
  | .captureDataRead => BusRoundTrip.captureDataRead
  | .capturePop v => BusRoundTrip.capturePop v
  | .registerWriteIgnored a v => BusRoundTrip.registerWriteIgnored a v

/-- Settles O4: the round trip of each command. -/
theorem decodeOfEncodeFindsTheCommand : Obligations.DecodeOfEncodeFindsTheCommand :=
  fun i a hw h => mem_decodeAccess_of_encode i a hw h

/-- The command of a read is one of the three reads that change state. -/
theorem decodeRead_cases {a : BitVec 6} {c : Instr} (h : decodeRead a = some c) :
    c = .enableRefusedRead ∨ c = .evqHead0Read ∨ c = .captureDataRead := by
  unfold decodeRead at h
  split at h
  · cases h; exact .inl rfl
  · cases h; exact .inr (.inl rfl)
  · cases h; exact .inr (.inr rfl)
  · cases h

/-- A write to FG_CONTROL is the commands whose codes it carries. -/
theorem fgControl_wellFormed (v : Word) :
    ((if fgHasStart v then [Instr.fgStart v] else []) ++ (if fgHasStop v then [Instr.fgStop v] else [])).all
      (fun c => c.wellFormed && c.isHostAccess) = true := by
  cases hs : fgHasStart v <;> cases hp : fgHasStop v <;> simp [Instr.wellFormed, Instr.isHostAccess, encodeAccess, hs, hp]

/-- The commands of a write are well-formed host accesses. -/
theorem decodeWrite_wellFormed (a : BitVec 6) (v : Word) :
    (decodeWrite a v).all (fun c => c.wellFormed && c.isHostAccess) = true := by
  unfold decodeWrite
  split
  · next hw => simpa [Instr.wellFormed, Instr.isHostAccess, encodeAccess] using hw
  split
  case h_8 => exact fgControl_wellFormed v
  all_goals
    repeat' split
    all_goals rfl

/-- Settles O5: what a command of an access is issued by is found by O4. -/
theorem decodedCommandsAreWellFormed : Obligations.DecodedCommandsAreWellFormed := by
  intro a c h
  have sound : c.wellFormed = true ∧ c.isHostAccess = true := by
    cases a with
    | read a =>
      obtain rfl | rfl | rfl := decodeRead_cases (Option.mem_toList.mp h) <;> exact ⟨rfl, rfl⟩
    | write a v =>
      have all := List.all_eq_true.mp (decodeWrite_wellFormed a v) c h
      simpa using all
  obtain ⟨hw, hc⟩ := sound
  obtain ⟨b, hb⟩ := Option.isSome_iff_exists.mp hc
  exact ⟨hw, hc, b, hb, mem_decodeAccess_of_encode c b hw hb⟩

end Sys2Proof.Machine
end

section
set_option Elab.async false -- one proof after the other, within the check's limit on threads
/-! Map entries and configuration records in data words (R2, R81, R187, 11 section 11.5): the settling of obligation O6. -/

namespace Sys2Proof.Machine

/-! ### Codes -/

theorem field_lt (w : Word) (lo len : Nat) : w.field lo len < 2 ^ len :=
  Nat.mod_lt _ (Nat.two_pow_pos len)

theorem EntryKind.ofCode?_code (k : EntryKind) : EntryKind.ofCode? k.code = some k := by cases k <;> rfl

theorem EntryKind.code_of_ofCode? {n : Nat} {k : EntryKind} (h : EntryKind.ofCode? n = some k) : n = k.code := by
  unfold EntryKind.ofCode? at h
  split at h <;> cases h <;> rfl

theorem EntryKind.ofCode?_eq_none {n : Nat} (h : n < 4) : EntryKind.ofCode? n = none ↔ n = 3 := by
  revert n; decide

theorem Timing.ofCode?_code (t : Timing) : Timing.ofCode? t.code = some t := by
  cases t with
  | external => rfl
  | fg g => match g with
    | 0 => rfl
    | 1 => rfl

theorem Timing.code_of_ofCode? {n : Nat} {t : Timing} (h : Timing.ofCode? n = some t) : n = t.code := by
  unfold Timing.ofCode? at h
  split at h <;> cases h <;> rfl

theorem Timing.ofCode?_eq_none {n : Nat} (h : n < 4) : Timing.ofCode? n = none ↔ n = 3 := by
  revert n; decide

theorem Timing.code_le (t : Timing) : t.code ≤ 2 := by
  cases t with
  | external => decide
  | fg g => have := g.isLt; simp only [Timing.code]; omega

theorem Timing.code_eq_zero (t : Timing) : t.code = 0 ↔ t = .external := by cases t <;> simp [Timing.code]

/-- A bit of a word written as a number. -/
theorem bit_ofNat_div (n i : Nat) (hi : i < 16) : Word.bit (BitVec.ofNat 16 n) i = decide (n / 2 ^ i % 2 = 1) := by
  rw [bit_ofNat n i hi, Nat.testBit_eq_decide_div_mod_eq]

/-! ### Map entries -/

theorem MapEntry.word0_fields (e : MapEntry) : e.word0.field 0 2 = e.kind.code ∧ e.word0.bit 2 = (e.policy == .fill)
    ∧ e.word0.field 4 4 = e.sourceLine.val ∧ e.word0.field 8 7 = e.sourceSlot.val := by
  have hk : e.kind.code ≤ 2 := by cases e.kind <;> decide
  have hp : e.policy.code = if e.policy = .fill then 1 else 0 := by cases e.policy <;> rfl
  have hl := e.sourceLine.isLt
  have hs := e.sourceSlot.isLt
  have hp1 : e.policy.code ≤ 1 := by rw [hp]; split <;> omega
  refine ⟨?_, ?_, ?_, ?_⟩
  · rw [word0, field_ofNat _ _ _ (by omega)]; omega
  · rw [word0, bit_ofNat_div _ _ (by omega)]
    rw [show (e.kind.code + e.policy.code * 2 ^ 2 + e.sourceLine.val * 2 ^ 4 + e.sourceSlot.val * 2 ^ 8) / 2 ^ 2 % 2
      = e.policy.code by omega, hp]
    cases e.policy <;> rfl
  · rw [word0, field_ofNat _ _ _ (by omega)]; omega
  · rw [word0, field_ofNat _ _ _ (by omega)]; omega

theorem MapEntry.decode?_words (e : MapEntry) (h : ¬ (e.sourceLine = hostLine ∧ 16 ≤ e.sourceSlot.val)) :
    MapEntry.decode? e.word0 e.word1 = some e := by
  obtain ⟨hk, hp, hl, hs⟩ := e.word0_fields
  have host : ¬ (e.sourceLine.val = 8 ∧ 15 < e.sourceSlot.val) := fun ⟨h8, h15⟩ => h ⟨Fin.ext h8, h15⟩
  unfold MapEntry.decode?
  simp only [hk, hp, hl, hs, EntryKind.ofCode?_code, e.sourceLine.isLt, e.sourceSlot.isLt, dif_pos, host, if_false]
  obtain ⟨kind, policy, line, slot, value⟩ := e
  cases policy <;> rfl

theorem MapEntry.decode?_eq_none (w0 w1 : Word) : MapEntry.decode? w0 w1 = none ↔ w0.field 0 2 = 3 ∨ 9 ≤ w0.field 4 4
    ∨ 64 ≤ w0.field 8 7 ∨ (w0.field 4 4 = 8 ∧ 16 ≤ w0.field 8 7) := by
  have hkind := EntryKind.ofCode?_eq_none (field_lt w0 0 2)
  unfold MapEntry.decode?
  split
  · next hn => simp [hkind.mp hn]
  · next k hk =>
    have h3 : w0.field 0 2 ≠ 3 := fun h => by rw [hkind.mpr h] at hk; cases hk
    split
    · next hl =>
      split
      · next hs =>
        split
        · next hh => simp; omega
        · next hh => simp; omega
      · next hs => simp; omega
    · next hl => simp; omega

theorem MapEntry.fields_of_decode? {w0 w1 : Word} {e : MapEntry} (h : MapEntry.decode? w0 w1 = some e) :
    w0.field 0 2 = e.kind.code ∧ (e.policy = .fill ↔ w0.getLsbD 2 = true) ∧ e.sourceLine.val = w0.field 4 4
      ∧ e.sourceSlot.val = w0.field 8 7 ∧ e.value = w1 := by
  unfold MapEntry.decode? at h
  split at h
  · cases h
  · next k hk =>
    split at h
    · split at h
      · split at h
        · cases h
        · cases h
          refine ⟨EntryKind.code_of_ofCode? hk, ?_, rfl, rfl, rfl⟩
          change (if w0.getLsbD 2 = true then EntryPolicy.fill else .hold) = .fill ↔ _
          by_cases hb : w0.getLsbD 2 = true
          · rw [if_pos hb]; exact iff_of_true rfl hb
          · rw [if_neg hb]; exact iff_of_false nofun hb
      · cases h
    · cases h

/-! ### Configuration records -/

theorem LineConfig.inRange_iff (n : Line) (c : LineConfig) : c.inRange n = true ↔
    (n = hostLine → 1 ≤ c.slotCount ∧ c.slotCount ≤ 16 ∧ c.timing ≠ .external ∧ c.checkEnable = false)
      ∧ (n ≠ hostLine → 2 ≤ c.slotCount ∧ c.slotCount ≤ 64)
      ∧ 1 ≤ c.bitDivider ∧ c.bitDivider ≤ 64 ∧ c.damageThreshold ≤ 255 := by
  unfold LineConfig.inRange
  by_cases h : n = hostLine
  · simp [h, and_assoc]
  · simp [h, and_assoc]

theorem LineConfig.decode?_words (n : Line) (c : LineConfig) (h : c.inRange n = true) :
    LineConfig.decode? n c.word0 c.word1 c.word2 = some c := by
  obtain ⟨hhost, hphys, hd1, hd2, ht⟩ := (inRange_iff n c).mp h
  have hslots : c.slotCount ≤ 64 := by
    by_cases hn : n = hostLine
    · have := (hhost hn).2.1; omega
    · exact (hphys hn).2
  have hcode := c.timing.code_le
  have hg := c.group.isLt
  have hbit : ∀ b : Bool, bitAt b 12 = b.toNat * 4096 := fun b => rfl
  have hcheck := Bool.toNat_le c.checkEnable
  have hauto := Bool.toNat_le c.autoRehunt
  have w0 : c.word0.field 0 7 = c.slotCount ∧ c.word0.field 8 2 = c.timing.code ∧ c.word0.bit 12 = c.checkEnable := by
    refine ⟨?_, ?_, ?_⟩
    · rw [word0, hbit, field_ofNat _ _ _ (by omega)]; omega
    · rw [word0, hbit, field_ofNat _ _ _ (by omega)]; omega
    · rw [word0, hbit, bit_ofNat_div _ _ (by omega),
        show (c.slotCount + c.timing.code * 2 ^ 8 + c.checkEnable.toNat * 4096) / 2 ^ 12 % 2 = c.checkEnable.toNat by omega]
      cases c.checkEnable <;> rfl
  have w1 : c.word1.field 0 7 = c.bitDivider ∧ c.word1.field 8 2 = c.group.val ∧ c.word1.bit 12 = c.autoRehunt := by
    refine ⟨?_, ?_, ?_⟩
    · rw [word1, hbit, field_ofNat _ _ _ (by omega)]; omega
    · rw [word1, hbit, field_ofNat _ _ _ (by omega)]; omega
    · rw [word1, hbit, bit_ofNat_div _ _ (by omega),
        show (c.bitDivider + c.group.val * 2 ^ 8 + c.autoRehunt.toNat * 4096) / 2 ^ 12 % 2 = c.autoRehunt.toNat by omega]
      cases c.autoRehunt <;> rfl
  have w2 : c.word2.field 0 8 = c.damageThreshold := by rw [word2, field_ofNat _ _ _ (by omega)]; omega
  have fields : LineConfig.fields? c.word0 c.word1 c.word2 = some c := by
    unfold LineConfig.fields?
    simp only [w0, w1, w2, Timing.ofCode?_code, Option.map_some]
  rw [LineConfig.decode?, fields, Option.filter_some, if_pos h]

theorem LineConfig.fields_of_decode? {n : Line} {w0 w1 w2 : Word} {c : LineConfig}
    (h : LineConfig.decode? n w0 w1 w2 = some c) :
    c.slotCount = w0.field 0 7 ∧ w0.field 8 2 = c.timing.code ∧ c.bitDivider = w1.field 0 7
      ∧ c.checkEnable = w0.getLsbD 12 ∧ c.group.val = w1.field 8 2 ∧ c.damageThreshold = w2.field 0 8
      ∧ c.autoRehunt = w1.getLsbD 12 := by
  obtain ⟨hf, -⟩ := Option.filter_eq_some_iff.mp h
  obtain ⟨t, ht, rfl⟩ := Option.map_eq_some_iff.mp hf
  exact ⟨rfl, Timing.code_of_ofCode? ht, rfl, rfl, rfl, rfl, rfl⟩

theorem LineConfig.decode?_eq_none (n : Line) (w0 w1 w2 : Word) : LineConfig.decode? n w0 w1 w2 = none ↔ w0.field 8 2 = 3
    ∨ (n ≠ hostLine ∧ (w0.field 0 7 < 2 ∨ 64 < w0.field 0 7))
    ∨ (n = hostLine ∧ (w0.field 0 7 < 1 ∨ 16 < w0.field 0 7 ∨ w0.field 8 2 = 0 ∨ w0.getLsbD 12 = true))
    ∨ w1.field 0 7 < 1 ∨ 64 < w1.field 0 7 := by
  have hthreshold : w2.field 0 8 ≤ 255 := Nat.le_of_lt_succ (field_lt w2 0 8)
  cases ht : Timing.ofCode? (w0.field 8 2) with
  | none =>
    have h3 := (Timing.ofCode?_eq_none (field_lt w0 8 2)).mp ht
    rw [LineConfig.decode?, LineConfig.fields?, ht]
    simp [h3]
  | some t =>
    have h3 : w0.field 8 2 ≠ 3 := fun h => by
      rw [(Timing.ofCode?_eq_none (field_lt w0 8 2)).mpr h] at ht; cases ht
    have hzero : w0.field 8 2 = 0 ↔ t = .external := by rw [Timing.code_of_ofCode? ht, Timing.code_eq_zero]
    rw [LineConfig.decode?, LineConfig.fields?, ht, Option.map_some, Option.filter_some]
    simp only [ite_eq_right_iff, reduceCtorEq, imp_false, inRange_iff, hzero, Word.bit]
    by_cases hn : n = hostLine
    · by_cases hte : t = .external <;> cases w0.getLsbD 12 <;> simp [hn, h3, hte]; omega
    · simp [hn, h3]; omega

/-- Settles O6: the fields of both records at their places. -/
theorem recordsReadBackAreTakenUnchanged : Obligations.RecordsReadBackAreTakenUnchanged := by
  refine ⟨LineConfig.decode?_words, fun e h => e.decode?_words h, fun w0 w1 => ⟨MapEntry.decode?_eq_none w0 w1, ?_⟩,
    fun n w0 w1 w2 => ⟨LineConfig.decode?_eq_none n w0 w1 w2, ?_⟩⟩
  · intro e he
    obtain ⟨hk, hrest⟩ := MapEntry.fields_of_decode? he
    exact ⟨by rw [hk]; cases e.kind <;> rfl, hrest⟩
  · intro c hc
    obtain ⟨hs, ht, hrest⟩ := LineConfig.fields_of_decode? hc
    exact ⟨hs, by rw [ht]; cases c.timing <;> rfl, hrest⟩

end Sys2Proof.Machine
end

section
set_option Elab.async false -- one proof after the other, within the check's limit on threads
/-! The bits of the words that registers read: a sum of flags, each at its own bit. -/

namespace Sys2Proof.Machine

theorem bitAt_le (b : Bool) (i : Nat) : bitAt b i ≤ 2 ^ i := by
  have := Nat.mul_le_mul_right (2 ^ i) (Bool.toNat_le b)
  simpa [bitAt] using this

/-- A flag above a number shows at its bit and leaves the others. -/
theorem testBit_add_bitAt {x i : Nat} (b : Bool) (h : x < 2 ^ i) (j : Nat) :
    (x + bitAt b i).testBit j = if j = i then b else x.testBit j := by
  have hadd : x + bitAt b i = 2 ^ i * b.toNat + x := by rw [bitAt]; ring
  rw [hadd, Nat.testBit_two_pow_mul_add b.toNat h]
  split
  · next hlt => rw [if_neg (by omega)]
  · next hge =>
    split
    · next he => subst he; cases b <;> simp
    · next hne =>
      have hx : x.testBit j = false := Nat.testBit_lt_two_pow (lt_of_lt_of_le h (Nat.pow_le_pow_right (by decide) (by omega)))
      rw [hx]
      have hone : b.toNat < 2 ^ (j - i) := lt_of_le_of_lt (Bool.toNat_le b) (Nat.one_lt_two_pow (by omega))
      exact Nat.testBit_lt_two_pow hone

theorem add_bitAt_lt {x i : Nat} (b : Bool) (h : x < 2 ^ i) : x + bitAt b i < 2 ^ (i + 1) := by
  have := bitAt_le b i
  rw [Nat.pow_succ]; omega

/-- The flags of the first `k` bits. -/
theorem testBit_sum_bitAt (f : Nat → Bool) (k : Nat) :
    ((List.range k).map fun i => bitAt (f i) i).foldl (· + ·) 0 < 2 ^ k
      ∧ ∀ j, (((List.range k).map fun i => bitAt (f i) i).foldl (· + ·) 0).testBit j = (decide (j < k) && f j) := by
  induction k with
  | zero => simp
  | succ k ih =>
    obtain ⟨hlt, hbit⟩ := ih
    rw [List.range_succ, List.map_append, List.foldl_append]
    refine ⟨add_bitAt_lt (f k) hlt, fun j => ?_⟩
    have top := testBit_add_bitAt (f k) hlt j
    rw [hbit] at top
    refine top.trans ?_
    split
    · next he => subst he; simp
    · next hne =>
      have : j < k + 1 ↔ j < k := by omega
      simp [this]

/-- The word of a set of lines shows its members. -/
theorem lineSetWord_getLsbD (l : LineSet) (b : Nat) :
    (lineSetWord l).getLsbD b = true ↔ ∃ n : Line, n.val = b ∧ l.get n = true := by
  let f : Nat → Bool := fun i => if h : i < 9 then l.get ⟨i, h⟩ else false
  have hsum : (allLines.map fun n => bitAt (l.get n) n.val) = (List.range 9).map fun i => bitAt (f i) i := rfl
  obtain ⟨-, hbit⟩ := testBit_sum_bitAt f 9
  rw [lineSetWord, hsum, BitVec.getLsbD_ofNat, hbit]
  constructor
  · intro h
    simp only [Bool.and_eq_true, decide_eq_true_eq] at h
    obtain ⟨-, hlt, hf⟩ := h
    exact ⟨⟨b, hlt⟩, rfl, by simpa [f, hlt] using hf⟩
  · rintro ⟨n, rfl, hn⟩
    have := n.isLt
    simp only [Bool.and_eq_true, decide_eq_true_eq]
    exact ⟨by omega, n.isLt, by simpa [f] using hn⟩

theorem lineBit_lineSetWord (l : LineSet) (n : Line) : lineBit (lineSetWord l) n = l.get n := by
  rw [Bool.eq_iff_iff, lineBit, lineSetWord_getLsbD]
  exact ⟨fun ⟨m, hm, hl⟩ => by rwa [← Fin.ext hm], fun h => ⟨n, rfl, h⟩⟩

end Sys2Proof.Machine
end

section
set_option Elab.async false -- one proof after the other, within the check's limit on threads
/-! Reads that change state, the exchange restart, the registers of the generators and LINE_ENABLE: the settling of obligations
O8, O10, O11, O14 and O15. -/

namespace Sys2Proof.Machine

/-! ### Reads that change state -/

theorem EventKind.code_le (k : EventKind) : k.code ≤ 10 := by cases k <;> decide

/-- The fields of word 0 of a record. -/
theorem EventRecord.word0_fields (r : EventRecord) : (r.words.get 0).field 0 4 = r.kind.code
    ∧ (r.words.get 0).field 4 4 = r.lineA.val ∧ (r.words.get 0).field 8 4 = r.lineB.val
    ∧ (r.words.get 0).field 12 4 = 0 := by
  have hk := r.kind.code_le
  have hA := r.lineA.isLt
  have hB := r.lineB.isLt
  have hw : r.words.get 0 = BitVec.ofNat 16 (r.kind.code + r.lineA.val * 2 ^ 4 + r.lineB.val * 2 ^ 8) := rfl
  rw [hw]
  refine ⟨?_, ?_, ?_, ?_⟩ <;> rw [field_ofNat _ _ _ (by omega)] <;> omega

/-- Settles O8: each of the three reads changes its register and the word on the bus. -/
theorem readsThatChangeState : Obligations.ReadsThatChangeState := by
  refine ⟨fun s hs => ⟨?refused, ?head, ?capture⟩, fun r => ?words⟩
  case refused =>
    refine ⟨enableRefusedRead s, exec_hostAccess rfl (by simp) hs, fun n => lineBit_lineSetWord _ n, fun b hb => ?_,
      fun n => by simp [enableRefusedRead, LineSet.empty], takeHeld_onlyChanges .enableRefusedRead s, rfl⟩
    rw [Bool.eq_false_iff]
    intro h
    obtain ⟨n, hn, -⟩ := (lineSetWord_getLsbD _ b).mp h
    have := n.isLt
    omega
  case head =>
    refine ⟨evqHead0Read s, exec_hostAccess rfl (by simp) hs, rfl, ?_, rfl, rfl, takeHeld_onlyChanges .evqHead0Read s, rfl⟩
    have hl : (evqHead0Read s).evq.latch = s.evq.snapshot := rfl
    rw [hl]
    unfold EventQueue.snapshot
    cases s.evq.records with
    | nil => exact fun k => by simp
    | cons r rs => rfl
  case capture =>
    refine ⟨captureDataRead s, exec_hostAccess rfl (by simp) hs, ?_, takeHeld_onlyChanges .captureDataRead s, ?_⟩
    · unfold captureDataRead
      cases s.host.captures with
      | nil => exact ⟨rfl, rfl⟩
      | cons c cs => exact ⟨rfl, rfl⟩
    · unfold captureDataRead
      cases s.host.captures <;> rfl
  case words =>
    obtain ⟨hk, hA, hB, h12⟩ := r.word0_fields
    exact ⟨by rw [hk]; cases r.kind <;> rfl, hA, hB, h12, rfl, rfl, rfl⟩

/-! ### The exchange restart -/

/-- An enabled line hunts after an exchange restart. -/
theorem LineUnit.restarted_eq (l : LineUnit) : l.restarted = if l.enabled then
    { l with receiver := .hunt, verifyCount := 0, earlyCount := 0, timerArmed := false, txCounter := 0, rxRef := none }
    else { l with txCounter := 0, rxRef := none } := by
  unfold LineUnit.restarted
  split <;> rfl

theorem LineUnit.restarted_running (l : LineUnit) : l.restarted.running = false := by
  rw [LineUnit.restarted_eq]
  by_cases h : l.enabled = true <;> simp [LineUnit.running, h]

theorem BankControl.restarted_spec (b : BankControl) : b.restarted.result = .ok ∧ b.restarted.pair = .stable
    ∧ b.restarted.active = b.active ∧ (∀ n, b.restarted.adoptionSet.get n = false)
    ∧ b.restarted.stagedValid = (b.stagedValid && b.pair != .copying)
    ∧ ∀ n, b.restarted.current.get n
      = if b.pair = .commitPending ∧ b.adoptionSet.get n = true then b.active else b.current.get n := by
  unfold BankControl.restarted
  cases hp : b.pair <;> simp [LineSet.empty]

theorem not_isHost_restarted {g : Option Grant} (h : g.any Grant.isHost = false) :
    (g.map Grant.restarted).any Grant.isHost = false := by
  cases g with
  | none => rfl
  | some g => cases g <;> simp_all [Grant.isHost, Grant.restarted]

/-- Settles O10: what the restart makes of each block. -/
theorem exchangeRestartKeepsConfiguration : Obligations.ExchangeRestartKeepsConfiguration := by
  intro s hs
  have idle : s.arb.hostClaim = none ∧ s.arb.grant.any Grant.isHost = false := by
    simpa [State.stretched, Arbiter.hostInFlight] using hs
  obtain ⟨hresult, hpair, hactive, hset, hvalid, hcurrent⟩ := s.bc.restarted_spec
  refine ⟨exchangeRestart s, exec_hostAccess rfl (by simp) hs, exchangeRestart_onlyChanges s, fun n => ?lines, rfl, rfl,
    rfl, rfl, rfl, rfl, rfl, rfl, idle.1, fun y p live hg => ?_, fun i live hg => ?_, fun hg => ?_,
    not_isHost_restarted idle.2, hresult, hpair, hactive, hset, hvalid, hcurrent⟩
  case lines =>
    have hline : (exchangeRestart s).lines.get n = (s.lines.get n).restarted := by simp [exchangeRestart]
    have hstore : (exchangeRestart s).stores.get n = (s.stores.get n).restarted := by simp [exchangeRestart]
    refine ⟨by rw [State.running, hline, LineUnit.restarted_running], by rw [hline, LineUnit.restarted_eq], ?_, ?_, ?_, ?_,
      fun i => ?_, by simp [exchangeRestart, State.reset], by simp [exchangeRestart, State.reset]⟩
    · simp [exchangeRestart, LineSet.empty]
    · rw [hstore]; rfl
    · rw [hstore]; rfl
    · rw [hstore]; rfl
    · rw [hstore]
      simp [Store.restarted, Buffer.become, LineSet.empty]
  all_goals simp [exchangeRestart, Arbiter.restarted, hg, Grant.restarted]

/-! ### The registers of the generators -/

/-- The fit check. -/
theorem LineConfig.fits_iff (c : LineConfig) (g : Fin 2) (period : Word) :
    c.fits g period = true ↔ (c.timing = .fg g → c.slotCount * 16 * c.bitDivider ≤ period.toNat) := by
  rw [LineConfig.fits, Bool.or_eq_true, decide_eq_true_eq, bne_iff_ne, ne_eq, ← imp_iff_not_or]
  rfl

/-- A period is refused to a running generator, below 64, not above the phase, or where an enabled line does not fit it. -/
theorem periodRefused_iff (s : State) (g : Fin 2) (v : Word) : periodRefused s g v = true ↔
    (s.gens.get g).running = true ∨ v.toNat < 64 ∨ v.toNat ≤ (s.gens.get g).phase.toNat
      ∨ ∃ n, (s.lines.get n).enabled = true ∧ (s.lines.get n).config.timing = .fg g
        ∧ v.toNat < (s.lines.get n).config.slotCount * 16 * (s.lines.get n).config.bitDivider := by
  have misfit : (!s.allFit g v) = true ↔ ∃ n, (s.lines.get n).enabled = true ∧ (s.lines.get n).config.timing = .fg g
        ∧ v.toNat < (s.lines.get n).config.slotCount * 16 * (s.lines.get n).config.bitDivider := by
    rw [Bool.not_eq_true', Bool.eq_false_iff, ne_eq, State.allFit, List.all_eq_true]
    simp only [mem_allLines, forall_const, Bool.or_eq_true, Bool.not_eq_true', LineConfig.fits_iff, not_forall, not_or,
      Bool.not_eq_false, Nat.not_le, exists_prop]
  simp only [periodRefused, Bool.or_eq_true, decide_eq_true_eq, misfit, or_assoc]

/-- Settles O11: a write is refused or taken, by `periodRefused` and `phaseRefused`. -/
theorem generatorRegisterWrites : Obligations.GeneratorRegisterWrites := by
  refine ⟨fun g v s hs => ?period, fun g v s hs => ?phase, fun v s hs => ?start⟩
  case period =>
    refine ⟨fgPeriodWrite g v s, exec_hostAccess rfl (by simp) hs, takeHeld_onlyChanges (.fgPeriodWrite g v) s,
      fun h hne => by simp [fgPeriodWrite, hne], fun h => ?_, fun h => ?_⟩
    all_goals
      rw [← periodRefused_iff] at h
      simp [fgPeriodWrite, h]
  case phase =>
    refine ⟨fgPhaseWrite g v s, exec_hostAccess rfl (by simp) hs, takeHeld_onlyChanges (.fgPhaseWrite g v) s,
      fun h hne => by simp [fgPhaseWrite, hne], ?_⟩
    simp [fgPhaseWrite, phaseRefused]
  case start =>
    refine ⟨fgStart v s, exec_hostAccess rfl (by simp) hs, takeHeld_onlyChanges (.fgStart v) s, fun g => ?_⟩
    simp only [fgStart, State.withGens_gens, Tab.get_of, Generator.start]
    by_cases hr : (s.gens.get g).running = true <;> simp [hr]

/-! ### The order of the sides at a frame start -/

theorem mem_firstOnly {p : Part} {l : List Part} : p ∈ firstOnly l ↔ p ∈ l := by
  induction l with
  | nil => rfl
  | cons q l ih =>
    simp only [firstOnly, List.mem_cons, List.mem_filter, ih, bne_iff_ne]
    by_cases h : p = q <;> simp [h]

theorem firstOnly_nodup (l : List Part) : (firstOnly l).Nodup := by
  induction l with
  | nil => exact List.nodup_nil
  | cons q l ih => exact List.nodup_cons.mpr ⟨by simp [List.mem_filter], ih.filter _⟩

theorem mem_allParts (p : Part) : p ∈ allParts := by
  obtain ⟨n, side⟩ := p
  refine List.mem_flatMap.mpr ⟨n, mem_allLines n, ?_⟩
  cases side <;> simp

/-- Settles O14: the order holds every side once, and of them those of the timed lines. -/
theorem frameStartTakesEachSideOnce : Obligations.FrameStartTakesEachSideOnce := by
  refine fun timed order => ⟨(firstOnly_nodup _).filter _, fun p => ?_⟩
  rw [frameStartOrder, List.mem_filter, mem_firstOnly]
  exact and_iff_right (List.mem_append_right _ (mem_allParts p))

/-! ### LINE_ENABLE -/

theorem fitsGenerator_iff (s : State) (n : Line) : s.fitsGenerator n = true ↔
    ∀ g, (s.lines.get n).config.timing = .fg g →
      (s.lines.get n).config.slotCount * 16 * (s.lines.get n).config.bitDivider ≤ (s.gens.get g).period.toNat := by
  unfold State.fitsGenerator
  split
  · next h => simp [h]
  · next g h => simp [h, LineConfig.fits_iff]

/-- What LINE_ENABLE reads and writes of line `n` is the same. -/
structure EnableSame (n : Line) (s t : State) : Prop where
  gens : t.gens = s.gens
  line : t.lines.get n = s.lines.get n
  txa : t.txas.get n = s.txas.get n
  refused : t.enableRefused.get n = s.enableRefused.get n

theorem EnableSame.refl {n : Line} (s : State) : EnableSame n s s := ⟨rfl, rfl, rfl, rfl⟩

theorem EnableSame.trans {n : Line} {s t u : State} (h : EnableSame n s t) (k : EnableSame n t u) : EnableSame n s u :=
  ⟨k.gens.trans h.gens, k.line.trans h.line, k.txa.trans h.txa, k.refused.trans h.refused⟩

theorem EnableSame.enableLine_other {n m : Line} (h : n ≠ m) (s : State) : EnableSame n s (enableLine m s) := by
  refine ⟨by simp, by rw [enableLine_lines, if_neg (fun c => h c.1)], ?_, ?_⟩
  all_goals
    unfold enableLine zeroLastWords
    split <;> simp [h, LineSet.insert]

/-- A line that fits its generator's period is enabled. -/
theorem enableLine_of_fits {n : Line} {s : State} (h : s.fitsGenerator n = true) :
    (enableLine n s).lines.get n = { (s.lines.get n).enter .hunt with enabled := true, txCounter := 0 }
      ∧ (enableLine n s).txas.get n = { s.txas.get n with lastWords := List.replicate (Config.lineWords n) 0 }
      ∧ (enableLine n s).enableRefused = s.enableRefused := by
  simp [enableLine, h, zeroLastWords]

/-- Any other is refused. -/
theorem enableLine_of_misfit {n : Line} {s : State} (h : s.fitsGenerator n = false) :
    enableLine n s = s.withEnableRefused (s.enableRefused.insert n) := by
  simp [enableLine, h]

/-- LINE_ENABLE takes the line `n` whose bit is written 1 while it reads 0, and no other write reaches that line. -/
theorem lineEnable_line (v : Word) (s : State) (n : Line) : ∃ u, EnableSame n s u
    ∧ EnableSame n (if (lineBit v n && !(s.lines.get n).enabled) = true then enableLine n u else u) (lineEnable v s) := by
  have other (t : State) {m : Line} (hm : m ≠ n) :
      EnableSame n t (if (lineBit v m && !(t.lines.get m).enabled) = true then enableLine m t else t) := by
    split
    · exact .enableLine_other hm.symm t
    · exact .refl t
  refine foldl_allLines (P := EnableSame n s) (Q := fun t => ∃ u, EnableSame n s u
    ∧ EnableSame n (if (lineBit v n && !(s.lines.get n).enabled) = true then enableLine n u else u) t) n
    (.refl s) (fun t m hm h => h.trans (other t hm)) (fun t h => ⟨t, h, ?_⟩)
    (fun t m hm ⟨u, hu, h⟩ => ⟨u, hu, h.trans (other t hm)⟩)
  rw [h.line]
  exact .refl _

/-- Settles O15: each line is taken once, in the state that the lines before it leave. -/
theorem lineEnableTakesEachBit : Obligations.LineEnableTakesEachBit := by
  intro v s hs
  refine ⟨lineEnable v s, exec_hostAccess rfl (by simp) hs, takeHeld_onlyChanges (.lineEnable v) s, fun n => ?_⟩
  obtain ⟨u, hu, hend⟩ := lineEnable_line v s n
  have hfit : u.fitsGenerator n = s.fitsGenerator n := by simp only [State.fitsGenerator, hu.line, hu.gens]
  refine ⟨fun ⟨hb, he, h⟩ => ?_, fun g ⟨hb, he, ht, h⟩ => ?_, fun h => ?_⟩
  · rw [← fitsGenerator_iff, ← hfit] at h
    obtain ⟨hl, hx, hr⟩ := enableLine_of_fits h
    rw [hb, he] at hend
    exact ⟨by rw [hend.line]; simp [hl, hu.line, LineUnit.enter], by rw [hend.txa]; simp [hx, hu.txa],
      by rw [hend.refused]; simp [hr, hu.refused]⟩
  · have hmis : u.fitsGenerator n = false := by
      rw [hfit, Bool.eq_false_iff, ne_eq, fitsGenerator_iff]
      exact fun hall => absurd (hall g ht) (by omega)
    rw [hb, he, Bool.not_false, Bool.and_self, if_pos rfl, enableLine_of_misfit hmis] at hend
    exact ⟨by rw [hend.line]; simp [hu.line], by rw [hend.txa]; simp [hu.txa], by rw [hend.refused]; simp [LineSet.insert]⟩
  · have hno : (lineBit v n && !(s.lines.get n).enabled) = false := by rcases h with h | h <;> simp [h]
    rw [hno, if_neg Bool.false_ne_true] at hend
    exact ⟨hend.line.trans hu.line, hend.txa.trans hu.txa, hend.refused.trans hu.refused⟩

end Sys2Proof.Machine
end

section
set_option Elab.async false -- one proof after the other, within the check's limit on threads
/-! The operations on table memory and the accepted COMMIT: the settling of obligations O31, O32, O34 and O36. -/

namespace Sys2Proof.Machine

/-! ### The arbiter's order (R87) -/

theorem length_loadProgram (b : Bank) (n : Line) (slots : Nat) : (loadProgram b n slots).length = slots := by
  simp [loadProgram]

theorem getD_loadProgram (b : Bank) (n : Line) {slots i : Nat} (h : i < slots) :
    (loadProgram b n slots).getD i .zero = Bank.read b (n.val * 64 + i) := by
  rw [List.getD_eq_getElem _ _ (by simpa [loadProgram] using h)]
  simp only [loadProgram, List.getElem_map, List.getElem_range]
  rfl

/-- Settles O31, along the matches of `arbiterGrant`. -/
theorem arbiterGrantsInOrder : Obligations.ArbiterGrantsInOrder := by
  intro s
  have step : exec .arbiterGrant s = .next (arbiterGrant s) := rfl
  rw [step]
  refine ⟨fun y rest hg hq => ?load, fun op hg hq hc => ?host, fun i hg hq hc hcopy => ?copy, fun h => ?none⟩
  case load =>
    refine ⟨_, by simp only [arbiterGrant, hg, hq]; rfl, length_loadProgram _ _ _, fun i hi => ?_⟩
    exact getD_loadProgram _ _ (by simpa [length_loadProgram] using hi)
  case host =>
    simp only [arbiterGrant, hg, hq, hc]
    cases op <;> rfl
  case copy => simp only [arbiterGrant, hg, hq, hc, hcopy]
  case none =>
    obtain hg | ⟨hq, hc, hcopy⟩ := h
    · obtain ⟨g, hg⟩ := Option.ne_none_iff_exists'.mp hg
      simp only [arbiterGrant, hg]
    · unfold arbiterGrant
      split <;> simp [hq, hc, hcopy]

/-! ### The host's map operations (R80, R83, R182 to R184) -/

/-- The table port after an operation that ends with OK. -/
theorem tpEnd_ok_tp (s : State) : (tpEnd .ok s).tp = { s.tp.advance with result := .ok, timer := none } := rfl

theorem mapReadComplete_of_not_granted {s : State} (h : ∀ e, s.arb.grant ≠ some (.hostRead e)) : mapReadComplete s = s := by
  unfold mapReadComplete; split
  · next e hg => exact absurd hg (h e)
  all_goals rfl

theorem mapWriteComplete_of_not_granted {s : State} (h : ∀ e, s.arb.grant ≠ some (.hostWrite e)) :
    mapWriteComplete s = s := by
  unfold mapWriteComplete; split
  · next e hg => exact absurd hg (h e)
  all_goals rfl

/-- The banks after a host WRITE. -/
theorem finishMapWrite_reads {s : State} (hb : BanksCanonical s) (e : MapEntry) (b : BankName) (i : Nat) :
    Bank.read ((finishMapWrite e s).bank b) i
      = if b = s.bc.active.other ∧ i = s.tp.index.toNat then e else Bank.read (s.bank b) i := by
  have bank : (finishMapWrite e s).bank b
      = (s.withBank s.bc.staged (Bank.write (s.bank s.bc.staged) s.tp.index.toNat e)).bank b := by
    unfold finishMapWrite State.withBank
    cases b <;> cases s.bc.staged <;> rfl
  rw [bank, bank_withBank_write s hb]
  rfl

theorem finishMapWrite_arb_tp (e : MapEntry) (s : State) : (finishMapWrite e s).arb = { s.arb with grant := none }
    ∧ (finishMapWrite e s).tp = { s.tp.advance with result := .ok, timer := none } := by
  unfold finishMapWrite State.withBank
  cases s.bc.staged <;> exact ⟨rfl, rfl⟩

/-- Settles O32: with no access waiting the two ends are `finishMapRead` and `finishMapWrite`. -/
theorem mapOperationsComplete : Obligations.MapOperationsComplete := by
  intro s
  refine ⟨fun e hg hheld => ⟨finishMapRead e s, ?_, finishMapRead_onlyChanges e s, rfl, ?_⟩,
    fun e hg hheld hb => ⟨finishMapWrite e s, ?_, finishMapWrite_onlyChanges e s, (finishMapWrite_arb_tp e s).1,
      finishMapWrite_reads hb e, ?_⟩,
    fun h => congrArg Host.Outcome.next (mapReadComplete_of_not_granted h),
    fun h => congrArg Host.Outcome.next (mapWriteComplete_of_not_granted h)⟩
  · show Host.Outcome.next (mapReadComplete s) = _
    simp only [mapReadComplete, hg]
    rw [returnReady_none (by simpa using hheld)]
  · have tp : (finishMapRead e s).tp = { ({ s.tp with data := (s.tp.data.put 0 e.word0).put 1 e.word1 } : TablePort).advance
        with result := .ok, timer := none } := rfl
    obtain ⟨htable, hdata, -, hmove⟩ :=
      TablePort.advance_spec { s.tp with data := (s.tp.data.put 0 e.word0).put 1 e.word1 }
    rw [tp]
    exact ⟨hdata, rfl, htable, hmove⟩
  · show Host.Outcome.next (mapWriteComplete s) = _
    simp only [mapWriteComplete, hg]
    rw [returnReady_none (by simpa using hheld)]
  · obtain ⟨htable, hdata, -, hmove⟩ := s.tp.advance_spec
    rw [(finishMapWrite_arb_tp e s).2]
    exact ⟨hdata, rfl, htable, hmove⟩

/-! ### A copy step (R107, R111) -/

theorem copied_frame (i : Nat) (s : State) : (copied i s).bc = s.bc ∧ (copied i s).arb = { s.arb with grant := none }
    ∧ (copied i s).evq = s.evq ∧ (copied i s).irq = s.irq := by
  unfold copied State.withBank
  cases s.bc.staged <;> exact ⟨rfl, rfl, rfl, rfl⟩

theorem advanceCopy_bank (s : State) (b : BankName) : (advanceCopy s).bank b = s.bank b := by
  cases b <;> simp [State.bank]

/-- A copy of which entries are left goes on with the next one. -/
theorem advanceCopy_of_lt {s : State} (h : s.bc.copyIndex < 527) :
    advanceCopy s = (s.withBc { s.bc with copyIndex := s.bc.copyIndex + 1 }).withArb
      { s.arb with copyClaim := some (s.bc.copyIndex + 1) } := by
  rw [advanceCopy, if_pos (show s.bc.copyIndex + 1 < Config.mapEntries from Nat.succ_lt_succ h)]
  rfl

/-- The copy completes with its last entry. -/
theorem advanceCopy_of_last {s : State} (h : s.bc.copyIndex = 527) :
    advanceCopy s = completeCopy (s.withBc { s.bc with copyIndex := 528 }) := by
  rw [advanceCopy, if_neg (by simp [Config.mapEntries, h]), h]

theorem completeCopy_spec (s : State) : (completeCopy s).bc = { s.bc with pair := .stable, stagedValid := true }
    ∧ (completeCopy s).arb = s.arb ∧ (completeCopy s).irq.copyDone = true
    ∧ (s.evq.records.length < 32 → (completeCopy s).evq.records = s.evq.records ++ [⟨.copyDone, 0, 0, 1, 0, 0⟩]) := by
  refine ⟨by simp [completeCopy], by simp [completeCopy], rfl, fun h => ?_⟩
  simp [completeCopy, sendBankEvent, appendRecord, Config.eventCapacity, h]

theorem copyStepComplete_of_step {s : State} {i : Nat} {live : Bool} (h : s.arb.grant = some (.copyStep i live)) :
    copyStepComplete s = if live then advanceCopy (copied i s) else copied i s := by
  simp only [copyStepComplete, h, copied]

/-- Settles O34: a copy step writes its entry, and in a copy in progress advances it. -/
theorem copyStepWritesOneEntry : Obligations.CopyStepWritesOneEntry := by
  refine ⟨fun i live s hg hb => ⟨copyStepComplete s, rfl, copyStepComplete_onlyChanges s, fun b k => ?_, ?_⟩,
    fun s h => congrArg Host.Outcome.next (copyStepComplete_of_no_step h)⟩
  · have bank : (copyStepComplete s).bank b = (s.withBank s.bc.staged
        (Bank.write (s.bank s.bc.staged) i (Bank.read (s.bank s.bc.active) i))).bank b := by
      rw [copyStepComplete_of_step hg]
      split
      · rw [advanceCopy_bank]; cases b <;> rfl
      · cases b <;> rfl
    rw [bank, bank_withBank_write s hb]
    rfl
  · obtain ⟨hbc, harb, hevq, hirq⟩ := copied_frame i s
    rw [copyStepComplete_of_step hg]
    refine ⟨fun hl => ?_, fun hl hi => ?_, fun hl hi => ?_⟩
    · rw [hl]
      exact ⟨hbc, harb, hevq, hirq⟩
    · rw [hl, if_pos rfl, advanceCopy_of_lt (by rw [hbc]; exact hi), hbc, harb]
      exact ⟨rfl, rfl, hevq, hirq⟩
    · rw [hl, if_pos rfl, advanceCopy_of_last (by rw [hbc]; exact hi)]
      obtain ⟨kbc, karb, kirq, kevq⟩ := completeCopy_spec ((copied i s).withBc { (copied i s).bc with copyIndex := 528 })
      refine ⟨by rw [kbc, State.withBc_bc, hbc], by rw [karb, State.withBc_arb, harb], kirq, fun hroom => ?_⟩
      rw [State.withBc_evq, hevq] at kevq
      exact kevq hroom

/-! ### An accepted COMMIT (R99, R104) -/

theorem BankName.code_eq (b : BankName) : BitVec.ofNat 16 b.code = if b = .B then 1 else 0 := by cases b <;> rfl

/-- Settles O36: an accepted COMMIT completes at once where no line runs. -/
theorem commitCompletesWhenNoLineRuns : Obligations.CommitCompletesWhenNoLineRuns := by
  intro s hs hp hv
  have accepted : commit s = acceptCommit s := by simp [commit, hp, hv]
  refine ⟨commit s, exec_hostAccess rfl (by simp) hs, commit_onlyChanges s, ?_, fun ⟨n, hn⟩ => ?_, fun hnone => ?_⟩
  · rw [accepted, acceptCommit_bc]
  · have some : s.runningSet.isEmpty = false := by
      rw [Bool.eq_false_iff, ne_eq, runningSet_isEmpty_iff]
      exact fun h => by rw [h n] at hn; cases hn
    rw [accepted, acceptCommit, if_neg (by simp [some])]
    exact ⟨rfl, rfl⟩
  · have empty := (runningSet_isEmpty_iff s).mpr hnone
    have hbc := acceptCommit_bc s
    rw [accepted, hbc]
    rw [acceptCommit, if_pos empty]
    obtain ⟨-, hirq, hroom⟩ := completeCommit_spec (s.withBc { s.bc with
      pair := .commitPending, active := s.bc.active.other, adoptionSet := s.runningSet, result := .ok
      current := Tab.of fun n => if s.running n then s.bc.current.get n else s.bc.active.other })
    rw [BankName.code_eq] at hroom
    exact ⟨hirq, hroom⟩

end Sys2Proof.Machine
end

section
set_option Elab.async false -- one proof after the other, within the check's limit on threads
/-! The words of the registers (Table 11-2) and the writes to the table port's own registers: the settling of obligations O46
and O47. -/

namespace Sys2Proof.Machine

/-! ### Words of flags -/

/-- The bits of flags above a number, in increasing order of their places. -/
theorem testBit_flags (l : List (Bool × Nat)) : ∀ {x k : Nat}, x < 2 ^ k → (∀ p ∈ l, k ≤ p.2) →
    l.Pairwise (fun p q => p.2 < q.2) → ∀ j, ((l.foldl (fun t p => t + bitAt p.1 p.2) x).testBit j = true ↔
      x.testBit j = true ∨ ∃ p ∈ l, p.1 = true ∧ j = p.2) := by
  induction l with
  | nil => intro x k _ _ _ j; simp
  | cons p l ih =>
    intro x k hx hk hp j
    obtain ⟨hlt, hp⟩ := List.pairwise_cons.mp hp
    have hxp : x < 2 ^ p.2 := lt_of_lt_of_le hx (Nat.pow_le_pow_right (by decide) (hk p (by simp)))
    rw [List.foldl_cons, ih (add_bitAt_lt p.1 hxp) hlt hp, testBit_add_bitAt p.1 hxp]
    have hlow : j = p.2 → x.testBit j = false := fun h => h ▸ Nat.testBit_lt_two_pow hxp
    simp only [List.mem_cons, exists_eq_or_imp, ← or_assoc]
    refine or_congr_left ?_
    by_cases hj : j = p.2
    · simp [hlow hj, ← hj]
    · simp [hj]

/-- The bits of a word of flags alone. -/
theorem getLsbD_flags {l : List (Bool × Nat)} (hp : l.Pairwise (fun p q => p.2 < q.2)) (h : ∀ p ∈ l, p.2 < 16) (j : Nat) :
    (BitVec.ofNat 16 (l.foldl (fun t p => t + bitAt p.1 p.2) 0)).getLsbD j = true ↔ ∃ p ∈ l, p.1 = true ∧ j = p.2 := by
  rw [BitVec.getLsbD_ofNat, Bool.and_eq_true, decide_eq_true_eq, testBit_flags l (k := 0) (by simp) (by simp) hp]
  simp only [Nat.zero_testBit, Bool.false_eq_true, false_or, and_iff_right_iff_imp]
  rintro ⟨p, hm, -, rfl⟩
  exact h p hm

theorem testBit_flagsWord (l : List Bool) : ∀ b, (flagsWord l).testBit b = l.getD b false := by
  induction l with
  | nil => intro b; simp [flagsWord]
  | cons c l ih =>
    intro b
    cases b with
    | zero => cases c <;> simp [flagsWord, Nat.testBit_zero]
    | succ b =>
      rw [Nat.testBit_succ, flagsWord, show (c.toNat + 2 * flagsWord l) / 2 = flagsWord l by have := Bool.toNat_le c; omega, ih]
      rfl

theorem word_ne_zero_iff (w : Word) : (w != 0) = true ↔ ∃ b, w.getLsbD b = true := by
  rw [bne_iff_ne, ne_eq, ← not_iff_not, not_not, not_exists]
  refine ⟨fun h b => by simp [h], fun h => BitVec.eq_of_getLsbD_eq fun b _ => ?_⟩
  simpa using Bool.eq_false_iff.mpr (h b)

/-! ### The registers -/

theorem irqStatus_getLsbD (s : State) (b : Nat) : s.irqStatus.getLsbD b = true ↔
    (b = 0 ∧ s.evq.records ≠ []) ∨ (b = 1 ∧ ∃ n, (s.causes.get n).faulted = true) ∨ (b = 2 ∧ s.host.captures ≠ [])
    ∨ (b = 3 ∧ s.running hostLine = true ∧ s.host.insertPending = none)
    ∨ (b = 8 ∧ s.irq.evqLoss = true) ∨ (b = 9 ∧ s.irq.commitDone = true) ∨ (b = 10 ∧ s.irq.copyDone = true)
    ∨ (b = 11 ∧ s.irq.tpTimeout = true) := by
  have word : s.irqStatus = BitVec.ofNat 16 (List.foldl (fun t p => t + bitAt p.1 p.2) 0
    [(s.evqNonempty, 0), (s.anyFault, 1), (s.captureReady, 2), (s.insertReady, 3), (s.irq.evqLoss, 8), (s.irq.commitDone, 9),
      (s.irq.copyDone, 10), (s.irq.tpTimeout, 11)]) := by simp [State.irqStatus]
  rw [word, getLsbD_flags (by simp) (by simp)]
  simp [State.evqNonempty, State.anyFault, State.captureReady, State.insertReady, State.faulted, List.any_eq_true, mem_allLines, and_comm]

/-- IRQ_N is asserted where a status bit and its enable are both set. -/
theorem irqAsserted_iff (s : State) : s.irqAsserted = true ↔
    ∃ b, s.irqStatus.getLsbD b = true ∧ s.irq.enable.getLsbD b = true := by
  rw [State.irqAsserted, word_ne_zero_iff]
  simp

theorem fgStatus_getLsbD (s : State) (b : Nat) : s.fgStatus.getLsbD b = true ↔
    (b = 0 ∧ (s.gens.get 0).running = true) ∨ (b = 1 ∧ (s.gens.get 1).running = true)
    ∨ (b = 4 ∧ (s.gens.get 0).refused = true) ∨ (b = 5 ∧ (s.gens.get 1).refused = true) := by
  have word : s.fgStatus = BitVec.ofNat 16 (List.foldl (fun t p => t + bitAt p.1 p.2) 0
    [((s.gens.get 0).running, 0), ((s.gens.get 1).running, 1), ((s.gens.get 0).refused, 4), ((s.gens.get 1).refused, 5)]) := by
    simp [State.fgStatus]
  rw [word, getLsbD_flags (by simp) (by simp)]
  simp [and_comm]

theorem Policy.code_le (p : Policy) : p.code ≤ 3 := by cases p <;> decide

theorem groupPolicyWord_fields (s : State) :
    (∀ g : Fin 4, s.groupPolicyWord.field (2 * g.val) 2 = (s.policies.get g).code) ∧ s.groupPolicyWord.field 8 8 = 0 := by
  have h0 := (s.policies.get 0).code_le
  have h1 := (s.policies.get 1).code_le
  have h2 := (s.policies.get 2).code_le
  have h3 := (s.policies.get 3).code_le
  refine ⟨fun g => ?_, ?_⟩
  · rw [State.groupPolicyWord, field_ofNat _ _ _ (by omega)]
    match g with
    | 0 => show _ = (s.policies.get 0).code; norm_num; omega
    | 1 => show _ = (s.policies.get 1).code; norm_num; omega
    | 2 => show _ = (s.policies.get 2).code; norm_num; omega
    | 3 => show _ = (s.policies.get 3).code; norm_num; omega
  · rw [State.groupPolicyWord, field_ofNat _ _ _ (by omega)]
    omega

theorem PairState.code_le (p : PairState) : p.code ≤ 2 := by cases p <;> decide

theorem CommandResult.code_le (r : CommandResult) : r.code ≤ 3 := by cases r <;> decide

theorem BankName.code_eq_one (b : BankName) : b.code = 1 ↔ b = .B := by cases b <;> simp [BankName.code]

theorem BankName.code_le (b : BankName) : b.code ≤ 1 := by cases b <;> decide

theorem BankControl.status_fields (b : BankControl) : b.status.field 0 2 = b.pair.code
    ∧ (b.status.getLsbD 4 = true ↔ b.active = .B) ∧ (b.status.getLsbD 5 = true ↔ b.stagedValid = false)
    ∧ b.status.field 8 2 = b.result.code
    ∧ ∀ i, i ∉ ([0, 1, 4, 5, 8, 9] : List Nat) → b.status.getLsbD i = false := by
  have hp := b.pair.code_le
  have ha := b.active.code_le
  have hv : bitAt (!b.stagedValid) 5 = 0 ∧ b.stagedValid = true ∨ bitAt (!b.stagedValid) 5 = 32 ∧ b.stagedValid = false := by
    cases b.stagedValid <;> decide
  have hr := b.result.code_le
  have bit : ∀ i, i < 16 → b.status.getLsbD i = decide ((b.pair.code + b.active.code * 2 ^ 4 + bitAt (!b.stagedValid) 5
      + b.result.code * 2 ^ 8) / 2 ^ i % 2 = 1) := fun i hi => bit_ofNat_div _ i hi
  refine ⟨?_, ?_, ?_, ?_, fun i hi => ?_⟩
  · rw [BankControl.status, field_ofNat _ _ _ (by omega)]; omega
  · rw [bit 4 (by omega), decide_eq_true_eq, ← BankName.code_eq_one]; omega
  · rw [bit 5 (by omega), decide_eq_true_eq]
    obtain ⟨hv, hs⟩ | ⟨hv, hs⟩ := hv <;> rw [hv, hs] <;> simp only [Bool.true_eq_false, iff_false, iff_true] <;> omega
  · rw [BankControl.status, field_ofNat _ _ _ (by omega)]; omega
  · by_cases hlt : i < 16
    · rw [bit i hlt, decide_eq_false_iff_not]
      simp only [List.mem_cons, List.not_mem_nil, or_false, not_or] at hi
      have places : i = 2 ∨ i = 3 ∨ i = 6 ∨ i = 7 ∨ 10 ≤ i := by omega
      obtain rfl | rfl | rfl | rfl | hi := places
      iterate 4 omega
      have := Nat.pow_le_pow_right (n := 2) (by decide) hi
      rw [Nat.div_eq_of_lt (by omega)]
      decide
    · exact BitVec.getLsbD_of_ge _ _ (by omega)

theorem TpResult.code_le (r : TpResult) : r.code ≤ 7 := by cases r <;> decide

theorem TablePort.statusWord_fields (tp : TablePort) : tp.statusWord.field 0 4 = tp.result.code
    ∧ (tp.statusWord.getLsbD 15 = true ↔ tp.wrapped = true) ∧ tp.statusWord.field 4 11 = 0 := by
  have hr := tp.result.code_le
  have hw : bitAt tp.wrapped 15 = 0 ∧ tp.wrapped = false ∨ bitAt tp.wrapped 15 = 32768 ∧ tp.wrapped = true := by
    cases tp.wrapped <;> decide
  refine ⟨?_, ?_, ?_⟩
  · rw [TablePort.statusWord, field_ofNat _ _ _ (by omega)]; omega
  · have bit : tp.statusWord.getLsbD 15 = decide ((tp.result.code + bitAt tp.wrapped 15) / 2 ^ 15 % 2 = 1) :=
      bit_ofNat_div _ 15 (by omega)
    rw [bit, decide_eq_true_eq]
    obtain ⟨hw, hs⟩ | ⟨hw, hs⟩ := hw <;> rw [hw, hs] <;> simp only [Bool.false_eq_true, iff_false, iff_true] <;> omega
  · rw [TablePort.statusWord, field_ofNat _ _ _ (by omega)]; omega

theorem HostBlock.insertStatus_fields (h : HostBlock) (hlen : h.compose.length ≤ 16) :
    h.insertStatus.field 0 5 = h.compose.length
    ∧ ∀ b, 5 ≤ b → (h.insertStatus.getLsbD b = true ↔ (b = 8 ∧ h.insertPending ≠ none) ∨ (b = 12 ∧ h.overFlag = true)
      ∨ (b = 13 ∧ h.shortFlag = true) ∨ (b = 14 ∧ h.busyFlag = true)) := by
  have h8 := h.insertPending.isSome.toNat_le
  have h12 := h.overFlag.toNat_le
  have h13 := h.shortFlag.toNat_le
  have h14 := h.busyFlag.toNat_le
  have hlow : h.compose.length < 2 ^ 5 := by omega
  have bits := testBit_flags [(h.insertPending.isSome, 8), (h.overFlag, 12), (h.shortFlag, 13), (h.busyFlag, 14)] hlow
    (by simp) (by simp)
  refine ⟨?_, fun b hb => ?_⟩
  · simp only [HostBlock.insertStatus, bitAt]
    rw [field_ofNat _ _ _ (by omega)]
    omega
  · have none_low : h.compose.length.testBit b = false :=
      Nat.testBit_lt_two_pow (lt_of_lt_of_le hlow (Nat.pow_le_pow_right (by decide) hb))
    have word : h.insertStatus.getLsbD b = (decide (b < 16) && (List.foldl (fun t p => t + bitAt p.1 p.2) h.compose.length
      [(h.insertPending.isSome, 8), (h.overFlag, 12), (h.shortFlag, 13), (h.busyFlag, 14)]).testBit b) := by
      rw [HostBlock.insertStatus, BitVec.getLsbD_ofNat]; rfl
    rw [word, Bool.and_eq_true, decide_eq_true_eq, bits, none_low]
    simp only [List.mem_cons, List.not_mem_nil, or_false, exists_eq_or_imp, exists_eq_left, Bool.false_eq_true, false_or,
      Option.isSome_iff_ne_none]
    constructor
    · rintro ⟨-, ⟨h, rfl⟩ | ⟨h, rfl⟩ | ⟨h, rfl⟩ | ⟨h, rfl⟩⟩ <;> simp [h]
    · rintro (⟨rfl, h⟩ | ⟨rfl, h⟩ | ⟨rfl, h⟩ | ⟨rfl, h⟩) <;> simp [h]

theorem HostBlock.captureStatus_fields (h : HostBlock) (hlen : h.captures.length ≤ 8) (hi : h.readIndex ≤ 15)
    (hc : ∀ c ∈ h.captures, c.slotCount ≤ 16) : h.captureStatus.field 0 4 = h.captures.length
    ∧ h.captureStatus.field 4 5 = (h.captures.head?.map CapturedFrame.slotCount).getD 0
    ∧ h.captureStatus.field 9 3 = 0 ∧ h.captureStatus.field 12 4 = h.readIndex := by
  have hs : (h.captures.head?.map CapturedFrame.slotCount).getD 0 ≤ 16 := by
    cases hcs : h.captures with
    | nil => simp
    | cons c cs => exact hc c (by simp [hcs])
  simp only [HostBlock.captureStatus]
  refine ⟨?_, ?_, ?_, ?_⟩ <;> rw [field_ofNat _ _ _ (by omega)] <;> omega

/-- Settles O46, register by register. -/
theorem interruptStatusAndLine : Obligations.InterruptStatusAndLine := by
  intro s
  refine ⟨irqStatus_getLsbD s, irqAsserted_iff s, rfl, fun b => ?_, ⟨rfl, rfl, rfl, rfl⟩, ⟨fun g => ?_, ?_⟩, ?_,
    fgStatus_getLsbD s, fun b => ?_, ?_, ⟨rfl, rfl, rfl⟩, s.host.insertStatus_fields, fun hlen hi hc => ?_, fun b hb => ?_⟩
  · refine (lineSetWord_getLsbD (Tab.of fun n => (s.lines.get n).enabled) b).trans ?_
    simp only [Tab.get_of]
  · rw [show readRegister s 0x0B = s.groupPolicyWord from rfl, (groupPolicyWord_fields s).1 g]
    cases s.policies.get g <;> rfl
  · exact (groupPolicyWord_fields s).2
  · obtain ⟨hpair, hactive, hvalid, hresult, hrest⟩ := s.bc.status_fields
    refine ⟨hpair.trans ?_, hactive, hvalid, hresult.trans ?_, hrest⟩
    · cases s.bc.pair <;> rfl
    · cases s.bc.result <;> rfl
  · refine (lineSetWord_getLsbD (Tab.of fun n => s.faulted n) b).trans ?_
    simp only [Tab.get_of, State.faulted]
  · obtain ⟨hresult, hrest⟩ := s.tp.statusWord_fields
    refine ⟨hresult.trans ?_, hrest⟩
    cases s.tp.result <;> rfl
  · obtain ⟨hl, hs, hz, hr⟩ := s.host.captureStatus_fields hlen hi hc
    refine ⟨hl, hs.trans ?_, hz, hr⟩
    cases s.host.captures <;> rfl
  · rw [show readRegister s 0x25 = s.host.captureMask from rfl, HostBlock.captureMask, BitVec.getLsbD_ofNat,
      testBit_flagsWord, decide_eq_true hb, Bool.true_and]
    cases s.host.captures <;> rfl

/-! ### The table port's own registers (R178 to R180) -/

theorem TablePort.cursorWord_fields (tp : TablePort) : tp.cursorWord.field 0 10 = tp.index.toNat
    ∧ tp.cursorWord.field 10 2 = 0 ∧ tp.cursorWord.field 12 4 = tp.tableId.toNat := by
  have hi := tp.index.isLt
  have ht := tp.tableId.isLt
  simp only [TablePort.cursorWord]
  refine ⟨?_, ?_, ?_⟩ <;> rw [field_ofNat _ _ _ (by omega)] <;> omega

theorem TablePort.controlWord_fields (tp : TablePort) : tp.controlWord.getLsbD 0 = tp.autoAdvance
    ∧ tp.controlWord.getLsbD 1 = tp.clearOnRead ∧ tp.controlWord.field 2 6 = 0
    ∧ tp.controlWord.field 8 8 = tp.limit.toNat := by
  have ha := tp.autoAdvance.toNat_le
  have hc := tp.clearOnRead.toNat_le
  have hl := tp.limit.isLt
  have bit : ∀ i, i < 16 → tp.controlWord.getLsbD i = decide
      ((tp.autoAdvance.toNat * 2 ^ 0 + tp.clearOnRead.toNat * 2 ^ 1 + tp.limit.toNat * 2 ^ 8) / 2 ^ i % 2 = 1) :=
    fun i hi => bit_ofNat_div _ i hi
  have one : ∀ b : Bool, b = true ↔ b.toNat = 1 := by decide
  refine ⟨?_, ?_, ?_, ?_⟩
  · rw [bit 0 (by omega), Bool.eq_iff_iff, decide_eq_true_eq, one]; omega
  · rw [bit 1 (by omega), Bool.eq_iff_iff, decide_eq_true_eq, one]; omega
  all_goals
    simp only [TablePort.controlWord, bitAt]
    rw [field_ofNat _ _ _ (by omega)]
    omega

theorem table_dimensions : ∀ id : BitVec 4, (tableSize id, recordLength id) = (match id.toNat with
    | 0 => (528, 2) | 1 => (528, 2) | 2 => (9, 3) | 3 => (9, 4) | 4 => (72, 1) | _ => (0, 0)) := by decide

/-- Settles O47. -/
theorem tablePortRegisterWrites : Obligations.TablePortRegisterWrites := by
  refine ⟨fun v s hs => ⟨⟨tpCursorWrite v s, exec_hostAccess rfl (by simp) hs, withTp_onlyChanges s _, ?_, ?_, rfl,
      fun k => ?_, rfl⟩, ⟨tpControlWrite v s, exec_hostAccess rfl (by simp) hs, withTp_onlyChanges s _, rfl, rfl, ?_, rfl⟩,
      fun k => ?_⟩,
    table_dimensions, fun s => ⟨s.tp.cursorWord_fields, s.tp.controlWord_fields, fun k => ?_⟩⟩
  · have := v.isLt
    simp [tpCursorWrite, TablePort.setCursor, Word.field]
    omega
  · simp [tpCursorWrite, TablePort.setCursor, Word.field]
  · simp [tpCursorWrite, TablePort.setCursor]
  · have := v.isLt
    have hf : v.field 8 8 = v.toNat / 256 := by simp only [Word.field]; omega
    simp only [tpControlWrite, State.withTp_tp, hf]
    split
    · rfl
    · rw [BitVec.toNat_ofNat]; omega
  · have taken : exec (.tpDataWrite k v) s = .next (tpDataWrite k v s) := exec_hostAccess rfl (by simp) hs
    rw [taken, tpDataWrite]
    exact ⟨fun h => by rw [if_pos h], fun h => by rw [if_neg (Nat.not_lt.mpr h)]⟩
  · match k with
    | 0 => rfl
    | 1 => rfl
    | 2 => rfl
    | 3 => rfl

end Sys2Proof.Machine
end

section
set_option Elab.async false -- one proof after the other, within the check's limit on threads
/-! What the queue holds after events and causes where it has room, and the flags that GROUP sets: the settling of obligations
O41, O42 and O43. -/

namespace Sys2Proof.Machine

/-! ### Records appended with room (R165) -/

theorem appendRecord_of_room (r : EventRecord) {s : State} (h : s.evq.records.length < 32) :
    appendRecord r s = s.withEvq { s.evq with records := s.evq.records ++ [r] } := if_pos h

theorem sendEvent_records (k : EventKind) (n : Line) (d : Word) {s : State} (h : s.evq.records.length < 32) :
    (sendEvent k n d s).evq.records = s.evq.records ++ [⟨k, n, 0, 1, d, s.stampOf n⟩] := by
  rw [sendEvent, appendRecord_of_room _ h]; rfl

/-- A new cause sends its FAULT. -/
theorem addCause_records (n : Line) (c : Cause) {s : State} (hc : (s.causes.get n).has c = false)
    (h : s.evq.records.length < 32) :
    (addCause n c s).evq.records = s.evq.records ++ [⟨.fault, n, 0, 1, c.code, s.stampOf n⟩] := by
  have kept : ∀ u, (suspendIfIsolating n u).evq = u.evq := fun u => by simp
  rw [addCause, hc, if_neg (by decide), kept]
  exact sendEvent_records _ _ _ h

/-- A cause that is present sends nothing. -/
theorem addCause_of_has {n : Line} {c : Cause} {s : State} (h : (s.causes.get n).has c = true) : addCause n c s = s :=
  if_pos h

/-- A record of each line in turn that sends one. -/
theorem foldl_records {f : State → Line → State} {sends : State → Line → Bool} {record : State → Line → EventRecord}
    (quiet : ∀ t n, sends t n = false → f t n = t)
    (speaks : ∀ t n, sends t n = true → t.evq.records.length < 32 → (f t n).evq.records = t.evq.records ++ [record t n])
    (other : ∀ t n m, m ≠ n → sends (f t n) m = sends t m ∧ record (f t n) m = record t m) (l : List Line) :
    ∀ s : State, l.Nodup → s.evq.records.length + (l.filter (sends s)).length ≤ 32 →
      (l.foldl f s).evq.records = s.evq.records ++ (l.filter (sends s)).map (record s) := by
  induction l with
  | nil => intro s _ _; simp
  | cons n l ih =>
    intro s hd hroom
    obtain ⟨hn, hd⟩ := List.nodup_cons.mp hd
    have same : l.filter (sends (f s n)) = l.filter (sends s) :=
      List.filter_congr fun m hm => (other s n m (fun h => hn (h ▸ hm))).1
    have records : (l.filter (sends s)).map (record (f s n)) = (l.filter (sends s)).map (record s) :=
      List.map_congr_left fun m hm => (other s n m (fun h => hn (h ▸ List.mem_of_mem_filter hm))).2
    rw [List.foldl_cons]
    cases hs : sends s n with
    | false =>
      rw [List.filter_cons_of_neg (by simp [hs])] at hroom ⊢
      rw [quiet s n hs]
      exact ih s hd hroom
    | true =>
      rw [List.filter_cons_of_pos hs] at hroom ⊢
      rw [List.length_cons] at hroom
      have sent := speaks s n hs (by omega)
      rw [ih (f s n) hd (by rw [sent, same, List.length_append, List.length_singleton]; omega), sent, same, records]
      simp

/-- The lines that gain GROUP send their FAULTs in increasing order of number (R154). -/
theorem giveGroup_records (g : Line → Bool) {s : State} (h : s.evq.records.length + (groupFaults s g).length ≤ 32) :
    (giveGroup g s).evq.records = s.evq.records ++ groupFaults s g := by
  refine foldl_records (sends := fun t m => g m && !(t.causes.get m).group)
    (record := fun t m => ⟨.fault, m, 0, 1, 3, t.stampOf m⟩) ?_ ?_ ?_ allLines s allLines_nodup
    (by simpa [groupFaults] using h)
  · intro t n hn
    by_cases hg : g n = true
    · rw [if_pos hg, addCause_of_has (by simpa [hg, CauseSet.has] using hn)]
    · rw [if_neg hg]
  · intro t n hn hroom
    rw [Bool.and_eq_true, Bool.not_eq_true'] at hn
    rw [if_pos hn.1]
    exact addCause_records n .group hn.2 hroom
  · intro t n m hm
    split
    · exact ⟨by rw [addCause_causes, if_neg hm], by simp [State.stampOf]⟩
    · exact ⟨rfl, rfl⟩

theorem groupFaults_length_le (s : State) (g : Line → Bool) : (groupFaults s g).length ≤ 9 := by
  rw [groupFaults, List.length_map]
  exact List.length_filter_le _ _

/-- A line that does not gain sends none. -/
theorem groupFaults_length_of_not {s : State} {g : Line → Bool} {n : Line} (h : g n = false) : (groupFaults s g).length ≤ 8 := by
  rw [groupFaults, List.length_map]
  refine Nat.lt_succ_iff.mp (List.length_filter_lt_length_iff_exists.mpr ⟨n, mem_allLines n, ?_⟩)
  simp [h]

/-- The FAULTs of a gain rest on the causes and the frame counts. -/
theorem groupFaults_congr {s t : State} {g k : Line → Bool} (hc : t.causes = s.causes) (hs : t.stores = s.stores)
    (hg : ∀ m, g m = k m) : groupFaults t g = groupFaults s k := by
  obtain rfl : g = k := funext hg
  simp only [groupFaults, State.stampOf, hc, hs]

/-- The flags that a gain of GROUP sets at once. -/
theorem giveGroup_txas (g : Line → Bool) (m : Line) (s : State) : (giveGroup g s).txas.get m
    = if g m = true ∧ (s.causes.get m).group = false ∧ (s.policyOf m).isolates = true then
        { s.txas.get m with suspended := true, spanSuspended := true }
      else s.txas.get m := by
  have isolated : ∀ t : State, (addCause m .group t).isolating m = (t.policyOf m).isolates := fun t => by
    have hp : (addCause m .group t).policyOf m = t.policyOf m := policyOf_congr (by simp) (by simp) m
    rw [State.isolating, hp, State.faulted, addCause_causes, if_pos rfl]
    simp [CauseSet.add, CauseSet.faulted]
  refine (foldl_allLines (P := fun t => t.txas.get m = s.txas.get m ∧ t.causes.get m = s.causes.get m
      ∧ t.policyOf m = s.policyOf m)
    (Q := fun t => t.txas.get m = if g m = true ∧ (s.causes.get m).group = false ∧ (s.policyOf m).isolates = true then
      { s.txas.get m with suspended := true, spanSuspended := true } else s.txas.get m)
    m ⟨rfl, rfl, rfl⟩ (fun t n hn ⟨hx, hc, hp⟩ => ?_) (fun t ⟨hx, hc, hp⟩ => ?_) (fun t n hn hx => ?_))
  · split
    · refine ⟨?_, ?_, (policyOf_congr (by simp) (by simp) m).trans hp⟩
      · rw [FlagsAfter.addCause_txas, if_neg (fun h => hn h.1.symm), hx]
      · rw [addCause_causes, if_neg hn.symm, hc]
    · exact ⟨hx, hc, hp⟩
  · by_cases hg : g m = true
    · rw [if_pos hg, FlagsAfter.addCause_txas, isolated, hx, hc, hp]
      simp [hg, CauseSet.has]
    · rw [if_neg hg, if_neg (fun h => hg h.1), hx]
  · split
    · rw [FlagsAfter.addCause_txas, if_neg (fun h => hn h.1.symm), hx]
    · exact hx

/-! ### GROUP_POLICY (R155) -/

theorem policyChanges_eq (v : Word) (s : State) (n : Line) :
    s.policyChanges v n = (s.policyOf n != (s.withPolicies (policiesOf v)).policyOf n) := rfl

theorem groupPolicyWrite_policyOf (v : Word) (s : State) (n : Line) :
    (groupPolicyWrite v s).policyOf n = (s.withPolicies (policiesOf v)).policyOf n := by
  obtain ⟨frame, policies⟩ := policiesSet_frame v s
  have lines : (policiesSet v s).lines = s.lines := frame .lines (by decide)
  simp [State.policyOf, State.groupOf, groupPolicyWrite_eq, policies, lines]

/-- The lines that gain GROUP by a GROUP_POLICY write: those of the groups that gain ISOLATE_GROUP in which another line holds an
own cause (R154, R155). -/
theorem groupPolicyWrite_gains (v : Word) (s : State) : ∃ g, groupPolicyWrite v s = giveGroup g (policiesSet v s)
    ∧ ∀ n, g n = ((groupPolicyWrite v s).policyOf n == .isolateGroup && s.policyOf n != .isolateGroup && s.otherOwnCause n) := by
  refine ⟨_, groupPolicyWrite_eq v s, fun n => ?_⟩
  rw [groupPolicyWrite_policyOf, policyChanges_eq, show (s.withPolicies (policiesOf v)).otherOwnCause n = s.otherOwnCause n from rfl]
  by_cases hp : (s.withPolicies (policiesOf v)).policyOf n = .isolateGroup
  · rw [hp, bne_comm, beq_self_eq_true, Bool.and_true, Bool.true_and, bne_comm]
  · rw [beq_eq_false_iff_ne.mpr hp, Bool.and_false, Bool.false_and, Bool.false_and, Bool.false_and]

/-- Settles O41: the policies are set, and then GROUP is given. -/
theorem groupPolicyTakesEffectAtOnce : Obligations.GroupPolicyTakesEffectAtOnce := by
  intro v s hs law
  obtain ⟨frame, policies⟩ := policiesSet_frame v s
  have causes : (policiesSet v s).causes = s.causes := frame .causes (by decide)
  have evq : (policiesSet v s).evq = s.evq := frame .evq (by decide)
  obtain ⟨g, write, gains⟩ := groupPolicyWrite_gains v s
  have flags : FlagsAfter noLine noLine (policiesSet v s) (groupPolicyWrite v s) := by
    rw [write]; exact .giveGroup _ _
  refine ⟨groupPolicyWrite v s, exec_hostAccess rfl (by simp) hs, groupPolicyWrite_onlyChanges v s, fun g => ?_, fun n => ?_,
    fun n => ((flags.keepsLaw (law.policiesSet v)) n).1, fun n hn => flags.keeps n (fun h => h) ?_, fun n => ?_, fun hroom => ?_⟩
  · rw [flags.policies, policies]
    simp [policiesOf]
  · have gained : ((groupPolicyWrite v s).causes.get n) = if g n then (s.causes.get n).add .group else s.causes.get n := by
      rw [write, giveGroup_causes, causes]
    rw [gained, gains]
    split
    · next h => simp_all [CauseSet.add]
    · next h => simp_all
  · rw [policiesSet_txas]
    split
    · rfl
    · exact hn
  · rw [write, giveGroup_txas, policiesSet_txas]
    split <;> split <;> exact ⟨rfl, rfl⟩
  · have sent : groupFaults (policiesSet v s) g = _ := groupFaults_congr causes (frame .stores (by decide)) gains
    have few := groupFaults_length_le (policiesSet v s) g
    have records := giveGroup_records g (s := policiesSet v s) (by rw [evq]; omega)
    rw [← write, sent, evq] at records
    exact records

/-! ### Releases (R157, R158) -/

/-- The state in which the named lines have been released, before any gains GROUP again (R157 step 2). -/
def released (named : Line → Bool) (s : State) : State :=
  allLines.foldl (fun t n => if named n && s.faulted n then releaseLine n t else t) s

theorem releaseLines_eq (named : Line → Bool) (s : State) : releaseLines named s =
    giveGroup (fun n => named n && s.faulted n && (released named s).policyOf n == .isolateGroup
      && (released named s).otherOwnCause n) (released named s) := rfl

theorem released_frame (named : Line → Bool) (s : State) : OnlyChanges [.lines, .causes, .evq, .irq] s (released named s)
    ∧ ∀ m, ((released named s).lines.get m).config = (s.lines.get m).config := by
  refine foldl_invariant (fun t => OnlyChanges [.lines, .causes, .evq, .irq] s t
    ∧ ∀ m, (t.lines.get m).config = (s.lines.get m).config) _ (fun t n ⟨hc, hl⟩ => ?_) _ _
    ⟨OnlyChanges.refl _ _, fun _ => rfl⟩
  split
  · refine ⟨hc.trans (u := releaseLine n t) ?_ (List.Subset.refl _), fun m => (by simpa using hl m)⟩
    intro f hf; cases f <;> simp [Field.same] at hf ⊢
  · exact ⟨hc, hl⟩

theorem released_records (named : Line → Bool) {s : State} (h : s.evq.records.length ≤ 23) :
    (released named s).evq.records = s.evq.records
      ++ (allLines.filter fun n => named n && s.faulted n).map fun n => ⟨.release, n, 0, 1, 0, s.stampOf n⟩ := by
  have few : (allLines.filter fun n => named n && s.faulted n).length ≤ 9 := List.length_filter_le _ _
  refine foldl_records (sends := fun _ n => named n && s.faulted n)
    (record := fun t n => ⟨.release, n, 0, 1, 0, t.stampOf n⟩) ?_ ?_ ?_ allLines s allLines_nodup (by omega)
  · intro t n hn
    rw [if_neg (by simpa using hn)]
  · intro t n hn hroom
    rw [if_pos hn, releaseLine, sendEvent_records _ _ _ (by simpa using hroom)]
    rfl
  · intro t n m _
    refine ⟨rfl, ?_⟩
    split
    · simp [State.stampOf]
    · rfl

theorem released_causes (named : Line → Bool) (s : State) (n : Line) :
    (released named s).causes.get n = if named n && s.faulted n then .empty else s.causes.get n :=
  (releaseFold_line (fun n => named n && s.faulted n) s n).1

/-- The lines that gain GROUP again are released lines, and those of them that hold GROUP afterwards (R157). -/
theorem releaseLines_gains (named : Line → Bool) (s : State) : ∃ g, releaseLines named s = giveGroup g (released named s)
    ∧ (∀ n, g n = (named n && s.faulted n && ((releaseLines named s).causes.get n).group))
    ∧ ∀ n, g n = true → ((released named s).causes.get n).group = false
      ∧ ((released named s).policyOf n).isolates = true := by
  refine ⟨_, releaseLines_eq named s, fun n => ?_, fun n hn => ?_⟩
  · rw [releaseLines_eq, giveGroup_causes, released_causes]
    cases hr : named n && s.faulted n with
    | false => simp
    | true =>
      rw [if_pos rfl, Bool.true_and]
      cases hg : (released named s).policyOf n == .isolateGroup && (released named s).otherOwnCause n <;> rfl
  · simp only [Bool.and_eq_true, beq_iff_eq] at hn
    obtain ⟨⟨⟨hnamed, hfaulted⟩, hpolicy⟩, -⟩ := hn
    exact ⟨by simp [released_causes, hnamed, hfaulted, CauseSet.empty], by rw [hpolicy]; rfl⟩

/-- Settles O42: the releases of the named lines, and then GROUP for those that gain it again. -/
theorem releaseEmptiesCauses : Obligations.ReleaseEmptiesCauses := by
  intro v s hs c named hc
  have taken : exec c s = .next (releaseLines named s) := by
    obtain ⟨rfl, rfl⟩ | ⟨rfl, rfl⟩ := hc
    · exact exec_hostAccess (c := .lineRelease v) rfl (by simp) hs
    · exact exec_hostAccess (c := .groupRelease v) rfl (by simp) hs
  have only : OnlyChanges [.lines, .causes, .txas, .evq, .irq] s (releaseLines named s) := by
    obtain ⟨rfl, rfl⟩ | ⟨rfl, rfl⟩ := hc
    · exact lineRelease_onlyChanges v s
    · exact groupRelease_onlyChanges v s
  obtain ⟨frame, -⟩ := released_frame named s
  have txas : (released named s).txas = s.txas := frame .txas (by decide)
  have stores : (released named s).stores = s.stores := frame .stores (by decide)
  have stamps : ∀ n, (released named s).stampOf n = s.stampOf n := fun n => by simp only [State.stampOf, stores]
  obtain ⟨g, write, again, fresh⟩ := releaseLines_gains named s
  refine ⟨releaseLines named s, taken, only, fun n hn hf => ?_, fun n h => ?_, fun n => ?_, fun hroom => ?_⟩
  · obtain ⟨line, causes⟩ := releaseLines_spec named s n
    rw [hn, hf, Bool.and_self, if_pos rfl] at line causes
    rw [causes]
    refine ⟨?_, ?_, ?_, line⟩
    all_goals split <;> simp_all [CauseSet.empty, CauseSet.add]
  · obtain ⟨line, causes⟩ := releaseLines_spec named s n
    have hr : (named n && s.faulted n) = false := by rcases h with h | h <;> simp [h]
    rw [hr] at line causes
    exact ⟨causes, line⟩
  · have flags : (releaseLines named s).txas.get n = if g n then
        { s.txas.get n with suspended := true, spanSuspended := true } else s.txas.get n := by
      rw [write, giveGroup_txas, txas]
      by_cases hg : g n = true
      · obtain ⟨hgroup, hpolicy⟩ := fresh n hg
        rw [if_pos ⟨hg, hgroup, hpolicy⟩, if_pos hg]
      · rw [if_neg (fun h => hg h.1), if_neg hg]
    rw [flags, ← again]
    cases g n <;> simp
  · have few : ((allLines.filter fun n => named n && s.faulted n).map fun n =>
        (⟨.release, n, 0, 1, 0, s.stampOf n⟩ : EventRecord)).length ≤ 9 := by
      rw [List.length_map]; exact List.length_filter_le _ _
    have releases := released_records named (s := s) (by omega)
    have faults := groupFaults_length_le (released named s) g
    have records := giveGroup_records g (s := released named s) (by rw [releases, List.length_append]; omega)
    have gained : groupFaults (released named s) g
        = (allLines.filter fun n => (named n && s.faulted n) && ((releaseLines named s).causes.get n).group).map
          fun n => ⟨.fault, n, 0, 1, 3, s.stampOf n⟩ := by
      simp only [groupFaults, stamps, ← again]
      refine congrArg _ (List.filter_congr fun n _ => ?_)
      cases hg : g n with
      | false => rfl
      | true => simp [(fresh n hg).1]
    rw [← write, gained, releases] at records
    exact records

/-! ### How an event reaches the queue (R165 to R167) -/

theorem addDetail_eq (d : Word) (k : Nat) : addDetail d k = BitVec.ofNat 16 (min 65535 (d.toNat + k)) := by
  rw [addDetail, min_comm]

theorem satInc_eq (w : Word) : satInc w = BitVec.ofNat 16 (min 65535 (w.toNat + 1)) := by
  refine BitVec.eq_of_toNat_eq ?_
  rw [satInc_toNat, BitVec.toNat_ofNat]
  omega

theorem isSlipOf_iff (r : EventRecord) (kind : EventKind) (y x : Line) :
    r.isSlipOf kind y x = true ↔ r.kind = kind ∧ r.lineA = y ∧ r.lineB = x := by
  simp [EventRecord.isSlipOf, and_assoc]

/-- A slip event merges into the one record of its kind and pair. -/
theorem sendSlip_of_record {kind : EventKind} {y x : Line} {skipped : Nat} {s : State} {before after : List EventRecord}
    {r : EventRecord} (h : s.evq.records = before ++ r :: after) (hr : r.isSlipOf kind y x = true)
    (hone : ∀ q ∈ before ++ after, r.isSlipOf kind y x = true → q.isSlipOf kind y x = false) :
    sendSlip kind y x skipped s = s.withEvq { s.evq with records := before ++ r.merge skipped :: after } := by
  have keeps : ∀ l : List EventRecord, (∀ q ∈ l, q ∈ before ++ after) →
      l.map (fun q => if q.isSlipOf kind y x then q.merge skipped else q) = l := by
    intro l hl
    refine (List.map_congr_left fun q hq => ?_).trans (List.map_id _)
    rw [if_neg (by simp [hone q (hl q hq) hr])]
    rfl
  rw [sendSlip, if_pos (by simp [h, hr]), h, List.map_append, List.map_cons, if_pos hr,
    keeps before (fun q hq => List.mem_append_left _ hq), keeps after (fun q hq => List.mem_append_right _ hq)]

/-- Settles O43: the records of before, and the chains that the turns keep. -/
theorem eventsAreAppendedMergedOrLost : Obligations.EventsAreAppendedMergedOrLost := by
  refine ⟨fun r s => ⟨appendRecord_of_room r, fun h => ?full⟩, fun kind y x skipped s before after r hs hk hA hB hone => ?merge,
    fun kind y x skipped s hnone => ?first, fun turns sent => ⟨taken_perm turns sent, fun c hc => sublist_interleave turns _ c hc⟩,
    fun turns before after r q h => continues_taken turns before after r q ?chain⟩
  case full =>
    rw [appendRecord_of_full r h]
    refine ⟨?_, rfl, ?_, rfl, rfl⟩
    · exact ((withEvq_onlyChanges s _).mono (gs := [.evq, .irq])).trans (withIrq_onlyChanges _ _).mono (List.Subset.refl _)
    · rw [State.withIrq_evq, State.withEvq_evq]
      have := s.evq.lost.isLt
      dsimp only
      split
      · next h => rw [h]; rfl
      · next h =>
        have : s.evq.lost.toNat ≠ 255 := fun hl => h (BitVec.eq_of_toNat_eq hl)
        rw [BitVec.toNat_add]; simp; omega
  case merge =>
    have hr := (isSlipOf_iff r kind y x).mpr ⟨hk, hA, hB⟩
    rw [sendSlip_of_record hs hr fun q hq _ => Bool.eq_false_iff.mpr fun hq' => hone q hq ((isSlipOf_iff q kind y x).mp hq')]
    rw [EventRecord.merge, satInc_eq, addDetail_eq]
  case first =>
    have none : s.evq.records.any (fun r => r.isSlipOf kind y x) = false := by
      rw [List.any_eq_false]
      exact fun q hq hs => hnone q hq ((isSlipOf_iff q kind y x).mp hs)
    rw [sendSlip, if_neg (by simp [none]), addDetail_eq]
    simp
  case chain =>
    simpa [EventRecord.continues] using h

end Sys2Proof.Machine
end

section
set_option Elab.async false -- one proof after the other, within the check's limit on threads
/-! TP_COMMAND (11 section 11.3): the settling of obligations O48 and O49. -/

namespace Sys2Proof.Machine

/-! ### Line status records (R54, R96, R160) -/

theorem Receiver.code_le (r : Receiver) : r.code ≤ 4 := by cases r <;> decide

theorem BankName.bitAt_code (b : BankName) (i : Nat) : b.code * 2 ^ i = bitAt (b == .B) i := by cases b <;> rfl

/-- The fields of word 0. -/
theorem statusWord0_fields (s : State) (n : Line) (hv : (s.lines.get n).verifyCount ≤ 2) :
    (s.statusWord0 n).field 0 3 = (s.lines.get n).receiver.code
    ∧ (s.statusWord0 n).field 4 2 = (s.lines.get n).verifyCount
    ∧ ∀ b, b ∉ ([0, 1, 2, 4, 5] : List Nat) → ((s.statusWord0 n).getLsbD b = true ↔
      (b = 6 ∧ s.running n = true) ∨ (b = 8 ∧ (s.causes.get n).faulted = true) ∨ (b = 9 ∧ (s.causes.get n).lost = true)
      ∨ (b = 10 ∧ (s.causes.get n).degraded = true) ∨ (b = 11 ∧ (s.causes.get n).group = true)
      ∨ (b = 12 ∧ s.bc.current.get n = .B) ∨ (b = 13 ∧ s.bc.adoptionSet.get n = true)
      ∨ (b = 15 ∧ (s.stores.get n).newest ≠ none)) := by
  have hr := (s.lines.get n).receiver.code_le
  let flags : List (Bool × Nat) := [(s.running n, 6), ((s.causes.get n).faulted, 8), ((s.causes.get n).lost, 9),
    ((s.causes.get n).degraded, 10), ((s.causes.get n).group, 11), (s.bc.current.get n == .B, 12),
    (s.bc.adoptionSet.get n, 13), ((s.stores.get n).newest.isSome, 15)]
  have word : s.statusWord0 n = BitVec.ofNat 16 (flags.foldl (fun t p => t + bitAt p.1 p.2)
      ((s.lines.get n).receiver.code + (s.lines.get n).verifyCount * 2 ^ 4)) := by
    simp only [State.statusWord0, BankName.bitAt_code, flags, List.foldl_cons, List.foldl_nil]
    rfl
  have hlow : (s.lines.get n).receiver.code + (s.lines.get n).verifyCount * 2 ^ 4 < 2 ^ 6 := by omega
  have bits := testBit_flags flags hlow (by simp [flags]) (by simp [flags])
  have total : flags.foldl (fun t p => t + bitAt p.1 p.2)
      ((s.lines.get n).receiver.code + (s.lines.get n).verifyCount * 2 ^ 4) < 65536
    ∧ flags.foldl (fun t p => t + bitAt p.1 p.2)
      ((s.lines.get n).receiver.code + (s.lines.get n).verifyCount * 2 ^ 4) % 64
        = (s.lines.get n).receiver.code + (s.lines.get n).verifyCount * 2 ^ 4 := by
    have le : ∀ b : Bool, b.toNat ≤ 1 := Bool.toNat_le
    have h6 := le (s.running n)
    have h8 := le (s.causes.get n).faulted
    have h9 := le (s.causes.get n).lost
    have h10 := le (s.causes.get n).degraded
    have h11 := le (s.causes.get n).group
    have h12 := le (s.bc.current.get n == .B)
    have h13 := le (s.bc.adoptionSet.get n)
    have h15 := le (s.stores.get n).newest.isSome
    simp only [flags, List.foldl_cons, List.foldl_nil, bitAt]
    omega
  obtain ⟨hsize, hmod⟩ := total
  refine ⟨?_, ?_, fun b hb => ?_⟩
  · rw [word, field_ofNat _ _ _ hsize]; omega
  · rw [word, field_ofNat _ _ _ hsize]; omega
  · have none_low : ((s.lines.get n).receiver.code + (s.lines.get n).verifyCount * 2 ^ 4).testBit b = false := by
      simp only [List.mem_cons, List.not_mem_nil, or_false, not_or] at hb
      by_cases h3 : b = 3
      · rw [h3, Nat.testBit_eq_decide_div_mod_eq, decide_eq_false_iff_not]; omega
      · exact Nat.testBit_lt_two_pow (lt_of_lt_of_le hlow (Nat.pow_le_pow_right (by decide) (by omega)))
    have place : ∀ p ∈ flags, p.2 < 16 := by simp [flags]
    have shown : (s.statusWord0 n).getLsbD b = true ↔ ∃ p ∈ flags, p.1 = true ∧ b = p.2 := by
      rw [word, BitVec.getLsbD_ofNat, Bool.and_eq_true, decide_eq_true_eq, bits, none_low]
      simp only [Bool.false_eq_true, false_or, and_iff_right_iff_imp]
      rintro ⟨p, hp, -, rfl⟩
      exact place p hp
    rw [shown]
    simp [flags, Option.isSome_iff_ne_none, and_comm]

/-- The byte of a buffer: the damaged flag and the holder count of a FREE or FILLING buffer read 0. -/
theorem statusByte_fields (b : Buffer) :
    b.statusByte < 256 ∧ b.statusByte % 4 = b.state.code
      ∧ (b.statusByte / 4 % 2 = 1 ↔ (b.state = .ready ∨ b.state = .retired) ∧ b.damaged = true)
      ∧ b.statusByte / 8 % 2 = 0
      ∧ ((b.state = .ready ∨ b.state = .retired) → b.statusByte / 16 = (allLines.filter fun y => b.holders.get y).length)
      ∧ (¬ (b.state = .ready ∨ b.state = .retired) → b.statusByte / 16 = 0) := by
  have hcard : b.holders.card ≤ 9 := List.length_filter_le _ _
  have hdamaged := b.damaged.toNat_le
  have one : b.damaged = true ↔ b.damaged.toNat = 1 := by cases b.damaged <;> decide
  rw [one]
  change _ ∧ _ ∧ _ ∧ _ ∧ (_ → _ = b.holders.card) ∧ _
  unfold Buffer.statusByte bitAt
  generalize b.damaged.toNat = d at *
  cases b.state <;> simp [BufferState.code] <;> omega

theorem statusWord2_field (s : State) (n : Line) :
    (s.statusWord2 n).field 0 8 = ((s.stores.get n).buffers.get 0).statusByte
    ∧ (s.statusWord2 n).field 8 8 = ((s.stores.get n).buffers.get 1).statusByte := by
  obtain ⟨h0, -⟩ := statusByte_fields ((s.stores.get n).buffers.get 0)
  obtain ⟨h1, -⟩ := statusByte_fields ((s.stores.get n).buffers.get 1)
  simp only [State.statusWord2]
  constructor <;> rw [field_ofNat _ _ _ (by omega)] <;> omega

theorem statusWord3_field (s : State) (n : Line) :
    (s.statusWord3 n).field 0 8 = ((s.stores.get n).buffers.get 2).statusByte
    ∧ (s.statusWord3 n).field 8 8 = ((s.stores.get n).buffers.get 3).statusByte := by
  obtain ⟨h2, -⟩ := statusByte_fields ((s.stores.get n).buffers.get 2)
  obtain ⟨h3, -⟩ := statusByte_fields ((s.stores.get n).buffers.get 3)
  simp only [State.statusWord3]
  constructor <;> rw [field_ofNat _ _ _ (by omega)] <;> omega

/-- The four words show the status of the line. -/
theorem showsLineStatus (s : State) (n : Line) (hv : (s.lines.get n).verifyCount ≤ 2) :
    ShowsLineStatus s n #v[s.statusWord0 n, s.statusWord1 n, s.statusWord2 n, s.statusWord3 n] := by
  obtain ⟨hreceiver, hcount, hflags⟩ := statusWord0_fields s n hv
  obtain ⟨h0, h1⟩ := statusWord2_field s n
  obtain ⟨h2, h3⟩ := statusWord3_field s n
  refine ⟨⟨hreceiver.trans ?_, hcount, hflags⟩, fun i f hf => ?_, fun hf => ?_, fun i => ?_⟩
  · cases (s.lines.get n).receiver <;> rfl
  · show s.statusWord1 n = _
    rw [State.statusWord1, hf]
  · show s.statusWord1 n = _
    rw [State.statusWord1, hf]
  · have byte : (Tab.get #v[s.statusWord0 n, s.statusWord1 n, s.statusWord2 n, s.statusWord3 n]
        (if i.val < 2 then 2 else 3)).field (8 * (i.val % 2)) 8 = ((s.stores.get n).buffers.get i).statusByte := by
      match i with
      | 0 => exact h0
      | 1 => exact h1
      | 2 => exact h2
      | 3 => exact h3
    obtain ⟨-, hstate, hrest⟩ := statusByte_fields ((s.stores.get n).buffers.get i)
    dsimp only
    rw [byte]
    refine ⟨hstate.trans ?_, hrest⟩
    cases ((s.stores.get n).buffers.get i).state <;> rfl

/-! ### The cursor after an operation (R184) -/

theorem TablePort.advance_cursor (tp : TablePort) : (tp.advance.index, tp.advance.wrapped) = if tp.autoAdvance = true then
    (if tp.index.toNat + 1 = tableSize tp.tableId then (0, true) else (tp.index + 1, tp.wrapped))
    else (tp.index, tp.wrapped) := by
  unfold TablePort.advance
  split
  · split <;> rfl
  · rfl

/-- An operation that ends with OK and moves the cursor of table port `tp` on. -/
theorem tpEnd_cursor (s : State) : ((tpEnd .ok s).tp.index, (tpEnd .ok s).tp.wrapped) = if s.tp.autoAdvance = true then
    (if s.tp.index.toNat + 1 = tableSize s.tp.tableId then (0, true) else (s.tp.index + 1, s.tp.wrapped))
    else (s.tp.index, s.tp.wrapped) :=
  s.tp.advance_cursor

theorem tpEnd_data (s : State) : (tpEnd .ok s).tp.data = s.tp.data := by
  obtain ⟨-, hdata, -⟩ := s.tp.advance_spec
  exact hdata

/-! ### READ -/

theorem tableSize_le (id : BitVec 4) (h : id.toNat ≤ 4) : tableSize id ≠ 0 := by
  have : id.toNat = 0 ∨ id.toNat = 1 ∨ id.toNat = 2 ∨ id.toNat = 3 ∨ id.toNat = 4 := by omega
  obtain h | h | h | h | h := this <;> simp [tableSize, h]

theorem tableSize_of_no_table {id : BitVec 4} (h : 5 ≤ id.toNat) : tableSize id = 0 := by
  rw [tableSize, if_neg (by omega), if_neg (by omega), if_neg (by omega)]

/-- A READ of a table outside table memory copies its record (R182). -/
theorem tpRead_of_record {s : State} (h2 : 2 ≤ s.tp.tableId.toNat) (h4 : s.tp.tableId.toNat ≤ 4)
    (hi : s.tp.index.toNat < tableSize s.tp.tableId) : tpRead s = tpEnd .ok (readRecord s) := by
  rw [tpRead, if_neg (tableSize_le _ h4), if_neg (by omega), if_neg (by omega)]

/-- The state after a READ of the words, outside table memory. -/
theorem tpEnd_setData (w : Tab Word 4) (s : State) : OnlyChanges [.tp] s (tpEnd .ok (setData w s))
    ∧ (tpEnd .ok (setData w s)).tp.result = .ok ∧ (tpEnd .ok (setData w s)).tp.data = w
    ∧ ((tpEnd .ok (setData w s)).tp.index, (tpEnd .ok (setData w s)).tp.wrapped) = if s.tp.autoAdvance = true then
      (if s.tp.index.toNat + 1 = tableSize s.tp.tableId then (0, true) else (s.tp.index + 1, s.tp.wrapped))
      else (s.tp.index, s.tp.wrapped) :=
  ⟨withTp_onlyChanges s _, rfl, tpEnd_data _, tpEnd_cursor _⟩

/-- The last line of a table of nine. -/
theorem cursor_of_line {s : State} {n : Line} (hi : s.tp.index.toNat = n.val) (ht : tableSize s.tp.tableId = 9) :
    (if s.tp.index.toNat + 1 = tableSize s.tp.tableId then ((0 : BitVec 10), true) else (s.tp.index + 1, s.tp.wrapped))
      = if n.val = 8 then (0, true) else (s.tp.index + 1, s.tp.wrapped) := by
  rw [hi, ht]
  simp only [Nat.reduceEqDiff]

theorem tableSize_lines {id : BitVec 4} (h : id.toNat = 2 ∨ id.toNat = 3) : tableSize id = 9 := by
  rw [tableSize, if_neg (by omega), if_pos (by omega)]

/-- A counter read with CLEAR_ON_READ is zeroed (R147). -/
theorem readCounter_counter (n m : Line) (k j : Fin 8) (s : State) : (readCounter n k s).counter m j
    = if s.tp.clearOnRead = true ∧ m = n ∧ j = k then 0 else s.counter m j := by
  unfold readCounter
  by_cases hc : s.tp.clearOnRead = true
  · rw [if_pos hc, State.counter, State.withCounters_counters, Tab.get_put]
    by_cases hm : m = n
    · subst hm
      by_cases hj : j = k <;> simp [hc, hj, State.counter]
    · simp [hm, State.counter]
  · rw [if_neg hc, if_neg (fun h => hc h.1)]
    rfl

theorem readCounter_frame (n : Line) (k : Fin 8) (s : State) : OnlyChanges [.tp, .counters] s (tpEnd .ok (readCounter n k s))
    ∧ (readCounter n k s).tp = { s.tp with data := #v[s.counter n k, 0, 0, 0] } := by
  unfold readCounter
  dsimp only
  split
  · exact ⟨fun f hf => by cases f <;> simp [Field.same, tpEnd, setData] at hf ⊢, rfl⟩
  · exact ⟨fun f hf => by cases f <;> simp [Field.same, tpEnd, setData] at hf ⊢, rfl⟩

/-- Settles O48: the tests of R181 in their order, and the record of the table. -/
theorem tablePortRead : Obligations.TablePortRead := by
  intro s hs
  have taken : exec .tpRead s = .next (tpRead s) := exec_hostAccess rfl (by simp) hs
  rw [taken]
  refine ⟨fun ht => ?noTable, fun ht hi => ?noEntry, fun ht hi => ?map, fun n ht hi => ?config, fun n ht hi => ?status,
    fun n k ht hi => ?counters⟩
  case noTable => rw [tpRead, if_pos (tableSize_of_no_table ht)]; rfl
  case noEntry => rw [tpRead, if_neg (tableSize_le _ ht), if_pos hi]; rfl
  case map =>
    have size : tableSize s.tp.tableId = 528 := by rw [tableSize, if_pos ht]
    rw [tpRead, size, if_neg (by decide), if_neg (by omega), if_pos ht]; rfl
  case config =>
    have id : s.tp.tableId.toNat = 2 := by rw [ht]; rfl
    have size := tableSize_lines (.inl id)
    have hn := n.isLt
    have record : readRecord s = readConfig n s := by
      simp only [readRecord, id, if_true, hi, indexIn_lt hn]
    obtain ⟨only, result, data, cursor⟩ := tpEnd_setData
      #v[(s.lines.get n).config.word0, (s.lines.get n).config.word1, (s.lines.get n).config.word2, 0] s
    rw [cursor_of_line hi size] at cursor
    rw [tpRead_of_record (by omega) (by omega) (by omega), record]
    exact ⟨_, rfl, only, result, data, cursor⟩
  case status =>
    have id : s.tp.tableId.toNat = 3 := by rw [ht]; rfl
    have size := tableSize_lines (.inr id)
    have hn := n.isLt
    have record : readRecord s = readStatus n s := by
      simp only [readRecord, id, hi, indexIn_lt hn]; rfl
    obtain ⟨only, result, data, cursor⟩ := tpEnd_setData #v[s.statusWord0 n, s.statusWord1 n, s.statusWord2 n, s.statusWord3 n] s
    rw [cursor_of_line hi size] at cursor
    rw [tpRead_of_record (by omega) (by omega) (by omega), record]
    exact ⟨_, rfl, only, result, fun hv => by rw [show (tpEnd .ok (readStatus n s)).tp.data = _ from data]
                                              exact showsLineStatus s n hv, cursor⟩
  case counters =>
    have id : s.tp.tableId.toNat = 4 := by rw [ht]; rfl
    have size : tableSize s.tp.tableId = 72 := by rw [ht]; rfl
    have hn := n.isLt
    have hk := k.isLt
    have line : counterLine s.tp.index.toNat = some n := by
      rw [counterLine, show s.tp.index.toNat / 8 = n.val by omega, indexIn_lt hn]
    have number : counterNumber s.tp.index.toNat = k := Fin.ext (show s.tp.index.toNat % 8 = k.val by omega)
    have record : readRecord s = readCounter n k s := by
      simp only [readRecord, id, line, number]; rfl
    obtain ⟨only, port⟩ := readCounter_frame n k s
    rw [tpRead_of_record (by omega) (by omega) (by omega), record]
    refine ⟨_, rfl, only, rfl, by rw [tpEnd_data, port], fun m j => readCounter_counter n m k j s, ?_⟩
    rw [tpEnd_cursor, port, size]
    simp only [Nat.reduceEqDiff]

/-! ### WRITE -/

theorem tpWrite_of_config {s : State} {n : Line} (ht : s.tp.tableId = 2) (hi : s.tp.index.toNat = n.val) :
    tpWrite s = writeLineConfig n s := by
  have id : s.tp.tableId.toNat = 2 := by rw [ht]; rfl
  have size := tableSize_lines (.inl id)
  have hn := n.isLt
  rw [tpWrite, if_neg (tableSize_le _ (by omega)), if_neg (by omega), if_neg (by omega), if_pos id, hi, indexIn_lt hn]

/-- A configuration record replaced leaves the other blocks. -/
theorem writeConfig_onlyChanges (n : Line) (c : LineConfig) (s : State) :
    OnlyChanges [.lines, .txas, .host, .causes, .evq, .irq, .tp] s (tpEnd .ok (writeConfig n c s)) := by
  intro f hf
  cases f <;> simp [Field.same] at hf ⊢

/-- The host line block after a configuration record has been replaced: a changed slot count of the host line empties the insert
side (R133). -/
theorem writeConfig_host (n : Line) (c : LineConfig) (s : State) : (writeConfig n c s).host
    = if n = hostLine ∧ c.slotCount ≠ (s.lines.get n).config.slotCount then s.host.clearInsert else s.host := by
  rw [writeConfig_eq]
  have moved : ∀ u, (moveGroup n u).host = u.host := fun u => by simp
  have host : (recordReplaced n c s).host
      = if n = hostLine ∧ c.slotCount ≠ (s.lines.get n).config.slotCount then s.host.clearInsert else s.host := by
    unfold recordReplaced; dsimp only; split <;> rfl
  split
  · rw [moved, host]
  · exact host

theorem recordReplaced_stores (n : Line) (c : LineConfig) (s : State) : (recordReplaced n c s).stores = s.stores
    ∧ (recordReplaced n c s).evq = s.evq := by
  unfold recordReplaced; dsimp only; split <;> exact ⟨rfl, rfl⟩

/-- The lines that gain GROUP as line `n` moves into group `g` (R154, R156). -/
def moveGains (n : Line) (g : Fin 4) (s : State) (m : Line) : Bool :=
  s.policies.get g == .isolateGroup && (if m = n then allLines.any fun x => x != n && s.groupOf x == g && (s.causes.get x).own
    else s.groupOf m == g && (s.causes.get n).own)

/-- A line whose new record names another group moves there. -/
theorem writeConfig_moves {n : Line} {c : LineConfig} {s : State} (h : c.group ≠ (s.lines.get n).config.group) :
    writeConfig n c s = giveGroup (moveGains n c.group s) (suspendIfIsolating n (recordReplaced n c s)) := by
  obtain ⟨causes, policies, -, own, others⟩ := recordReplaced_frame n c s
  have group : ∀ m, (recordReplaced n c s).groupOf m = if m = n then c.group else s.groupOf m := fun m => by
    split
    · next hm => rw [hm, State.groupOf, own]
    · next hm => rw [State.groupOf, others m hm]; rfl
  have policy : (recordReplaced n c s).policyOf n = s.policies.get c.group := by
    rw [State.policyOf, group, if_pos rfl, policies]
  rw [writeConfig_eq, if_pos h, moveGroup]
  refine congrArg (giveGroup · _) (funext fun m => ?_)
  rw [policy, moveGains, causes]
  refine congrArg _ ?_
  by_cases hm : m = n
  · rw [if_pos hm, if_pos hm, State.otherOwnCause, causes]
    refine congrArg (List.any allLines) (funext fun x => ?_)
    by_cases hx : x = n
    · simp [hx]
    · rw [group, group, if_neg hx, if_pos rfl]
  · rw [if_neg hm, if_neg hm, State.otherMember, group, group, if_neg hm, if_pos rfl, bne_iff_ne.mpr hm, Bool.true_and]

/-- A group that is kept moves no line. -/
theorem writeConfig_stays {n : Line} {c : LineConfig} {s : State} (h : c.group = (s.lines.get n).config.group) :
    writeConfig n c s = recordReplaced n c s := by rw [writeConfig_eq, if_neg (not_not.mpr h)]

/-- What a move into another group does (R156). -/
theorem writeConfig_moved {n : Line} {c : LineConfig} {s : State} (h : c.group ≠ (s.lines.get n).config.group) :
    (∀ m, (writeConfig n c s).causes.get m
      = if moveGains n c.group s m = true then { s.causes.get m with group := true } else s.causes.get m)
    ∧ (∀ m, (s.txas.get m).suspended = true → ((writeConfig n c s).txas.get m).suspended = true)
    ∧ ((writeConfig n c s).isolating n = true → ((writeConfig n c s).txas.get n).suspended = true)
    ∧ (s.evq.records.length ≤ 23 →
      (writeConfig n c s).evq.records = s.evq.records ++ groupFaults s (moveGains n c.group s)) := by
  obtain ⟨causes, -, txas, -, -⟩ := recordReplaced_frame n c s
  obtain ⟨stores, evq⟩ := recordReplaced_stores n c s
  have flags := FlagsAfter.giveGroup (moveGains n c.group s) (suspendIfIsolating n (recordReplaced n c s))
  have still : (suspendIfIsolating n (recordReplaced n c s)).isolating n = (recordReplaced n c s).isolating n :=
    isolating_of_same (by simp) (by simp) (by simp) n
  rw [writeConfig_moves h]
  refine ⟨fun m => ?_, fun m hm => flags.keeps m (fun h => h) ?_, flags.law n fun hi => ?_, fun hroom => ?_⟩
  · rw [giveGroup_causes, (by simp : (suspendIfIsolating n (recordReplaced n c s)).causes = (recordReplaced n c s).causes), causes]
    rfl
  · rw [suspendIfIsolating_txas, txas]
    split
    · rfl
    · exact hm
  · rw [still] at hi
    rw [suspendIfIsolating_txas, if_pos ⟨rfl, hi⟩]
  · have before : (suspendIfIsolating n (recordReplaced n c s)).evq = s.evq := by rw [← evq]; simp
    have faults : groupFaults (suspendIfIsolating n (recordReplaced n c s)) (moveGains n c.group s)
        = groupFaults s (moveGains n c.group s) :=
      groupFaults_congr (by rw [← causes]; simp) (by rw [← stores]; simp) fun _ => rfl
    have few := groupFaults_length_le s (moveGains n c.group s)
    rw [giveGroup_records _ (by rw [before, faults]; omega), before, faults]

/-- Settles O49: the tests of R181 in their order, and the configuration record replaced. -/
theorem tablePortWrite : Obligations.TablePortWrite := by
  intro s hs
  have taken : exec .tpWrite s = .next (tpWrite s) := exec_hostAccess rfl (by simp) hs
  rw [taken]
  refine ⟨fun ht => ?noTable, fun ht hi => ?noEntry, fun ht hi => ?readOnly, fun ht hi => ?map, fun n ht hi => ?config⟩
  case noTable => rw [tpWrite, if_pos (tableSize_of_no_table ht)]; rfl
  case noEntry => rw [tpWrite, if_neg (tableSize_le _ ht), if_pos hi]; rfl
  case readOnly =>
    have id : s.tp.tableId.toNat = 1 ∨ s.tp.tableId.toNat = 3 ∨ s.tp.tableId.toNat = 4 := by
      obtain h | h | h := ht <;> rw [h] <;> decide
    rw [tpWrite, if_neg (tableSize_le _ (by omega)), if_neg (by omega), if_neg (by omega), if_neg (by omega)]; rfl
  case map =>
    have id : s.tp.tableId.toNat = 0 := by rw [ht]; rfl
    have size : tableSize s.tp.tableId = 528 := by rw [ht]; rfl
    have map : tpWrite s = writeMap s := by rw [tpWrite, size, if_neg (by decide), if_neg (by omega), if_pos id]
    rw [map, writeMap]
    refine ⟨fun he => by rw [he]; rfl, fun e he => ⟨fun hp => ?_, fun hp => ?_⟩⟩
    · rw [he]; dsimp only; rw [if_neg hp]; rfl
    · rw [he]; dsimp only; rw [if_pos hp]; rfl
  case config =>
    have size : tableSize s.tp.tableId = 9 := by rw [ht]; rfl
    rw [tpWrite_of_config ht hi, writeLineConfig]
    refine ⟨fun hc => by rw [hc]; rfl, fun c hc => ⟨fun he hd => ?live, fun hd => ?taken⟩⟩
    case live => rw [hc]; dsimp only; rw [he, hd]; rfl
    case taken =>
      have free : ((s.lines.get n).enabled && (s.lines.get n).config.timingDiffers c) = false := by
        obtain h | h := hd <;> simp [h]
      rw [hc]; dsimp only; rw [free, if_neg Bool.false_ne_true]
      have port : (writeConfig n c s).tp = s.tp := by simp
      refine ⟨_, rfl, writeConfig_onlyChanges n c s, rfl, by rw [tpEnd_data, port], fun m hm => ?_, ?_, fun h => ?_,
        fun hn hslots => ?_, ?_, fun hg => ?_, fun hg => ?_⟩
      · show (writeConfig n c s).lines.get m = _
        rw [writeConfig_lines, if_neg hm]
      · show (writeConfig n c s).lines.get n = _
        rw [writeConfig_lines, if_pos rfl]
      · show (writeConfig n c s).host = _
        rw [writeConfig_host, if_neg (fun k => h.elim (fun h => h k.1) k.2)]
      · show (writeConfig n c s).host = _
        rw [writeConfig_host, if_pos ⟨hn, hslots⟩]; rfl
      · rw [tpEnd_cursor, port, cursor_of_line hi size]
      · obtain ⟨causes, -, txas, -, -⟩ := recordReplaced_frame n c s
        obtain ⟨-, evq⟩ := recordReplaced_stores n c s
        rw [writeConfig_stays hg]
        exact ⟨causes, txas, evq⟩
      · exact writeConfig_moved hg

end Sys2Proof.Machine
end

section
set_option Elab.async false -- one proof after the other, within the check's limit on threads
/-! The words of a frame, completion, emptying and acquisition (Chapter 3): the settling of obligations O24 and O25. -/

namespace Sys2Proof.Machine

/-! ### Words of received bits (R3, R42) -/

/-- The bits of a number formed from bits, most significant first, above a number formed before. -/
theorem testBit_foldl_bits (bs : List Bool) : ∀ t i, (bs.foldl (fun t (b : Bool) => 2 * t + b.toNat) t).testBit i
    = if i < bs.length then bs.getD (bs.length - 1 - i) false else t.testBit (i - bs.length) := by
  induction bs with
  | nil => intro t i; simp
  | cons b bs ih =>
    intro t i
    rw [List.foldl_cons, ih, List.length_cons]
    obtain h | h | h := Nat.lt_trichotomy i bs.length
    · rw [if_pos h, if_pos (by omega), show bs.length + 1 - 1 - i = (bs.length - 1 - i) + 1 by omega, List.getD_cons_succ]
    · rw [if_neg (by omega), if_pos (by omega), h, Nat.sub_self, Nat.add_sub_cancel, Nat.sub_self, List.getD_cons_zero,
        Nat.testBit_zero]
      cases b <;> simp
    · rw [if_neg (by omega), if_neg (by omega), show i - bs.length = (i - (bs.length + 1)) + 1 by omega, Nat.testBit_succ,
        show (2 * t + b.toNat) / 2 = t by have := b.toNat_le; omega]

theorem length_takeBits (k : Nat) (bs : List Bool) : (takeBits k bs).length = k := by
  induction k generalizing bs with
  | zero => rfl
  | succ k ih => cases bs <;> simp [takeBits, ih]

/-- A bit that has not been received counts as 0. -/
theorem getD_takeBits {k j : Nat} (bs : List Bool) (h : j < k) : (takeBits k bs).getD j false = bs.getD j false := by
  induction k generalizing j bs with
  | zero => omega
  | succ k ih =>
    cases bs with
    | nil =>
      cases j with
      | zero => rfl
      | succ j => rw [takeBits, List.getD_cons_succ, ih [] (by omega)]; simp
    | cons b bs =>
      cases j with
      | zero => rfl
      | succ j => rw [takeBits, List.getD_cons_succ, List.getD_cons_succ, ih bs (by omega)]

/-- A slot's word holds its sixteen bits, most significant first. -/
theorem slotWord_getLsbD (bits : List Bool) (k : Nat) {j : Nat} (h : j < 16) :
    (slotWord bits k).getLsbD (15 - j) = bits.getD (16 * k + j) false := by
  have hlen : (takeBits 16 (bits.drop (16 * k))).length = 16 := length_takeBits _ _
  have word : slotWord bits k = BitVec.ofNat 16 ((takeBits 16 (bits.drop (16 * k))).foldl (fun t b => 2 * t + b.toNat) 0) := rfl
  rw [word, BitVec.getLsbD_ofNat, decide_eq_true (by omega), Bool.true_and, testBit_foldl_bits, hlen, if_pos (by omega),
    show 16 - 1 - (15 - j) = j by omega, getD_takeBits _ h]
  simp [List.getD_eq_getElem?_getD, List.getElem?_drop]

theorem getD_fullFrame {slots k : Nat} (bits : List Bool) (h : k < slots) : (fullFrame slots bits).getD k 0 = slotWord bits k := by
  rw [List.getD_eq_getElem _ _ (by simpa [fullFrame] using h)]
  simp [fullFrame]

theorem getD_shortFrame {slots k : Nat} (bits : List Bool) (h : k < slots) : (shortFrame slots bits).getD k 0
    = if 16 * (k + 1) ≤ bits.length then slotWord bits k else 0 := by
  rw [List.getD_eq_getElem _ _ (by simpa [shortFrame] using h)]
  simp [shortFrame, Config.slotBits]

@[simp] theorem length_fullFrame (slots : Nat) (bits : List Bool) : (fullFrame slots bits).length = slots := by simp [fullFrame]

@[simp] theorem length_shortFrame (slots : Nat) (bits : List Bool) : (shortFrame slots bits).length = slots := by
  simp [shortFrame]

/-! ### Bit clocks (R42) -/

theorem formedWord_of_slot {slots k : Nat} {bits : List Bool} (h : bits.length = 16 * (k + 1)) (hk : k < slots) :
    formedWord slots bits = some (k, slotWord bits k) := by
  have hq : bits.length / Config.slotBits = k + 1 := by simp only [Config.slotBits]; omega
  have hr : bits.length % Config.slotBits = 0 := by simp only [Config.slotBits]; omega
  rw [formedWord, hq, if_pos ⟨hr, by omega, by omega⟩]
  rfl

theorem formedWord_eq_none {slots : Nat} {bits : List Bool} (h : bits.length % 16 ≠ 0 ∨ 16 * slots < bits.length) :
    formedWord slots bits = none := by
  have hb : Config.slotBits = 16 := rfl
  rw [formedWord, if_neg]
  rw [hb]
  omega

theorem Store.writeWord_of_filling {st : Store} {i : Fin 4} (h : st.filling = some i) (k : Nat) (w : Word) (j : Fin 4) :
    (st.writeWord k w).buffers.get j = if j = i then { st.buffers.get i with words := (st.buffers.get i).words.set k w }
      else st.buffers.get j := by
  rw [Store.writeWord, h]
  exact Store.modify_buffer st i j _

theorem Store.writeWord_of_none {st : Store} (h : st.filling = none) (k : Nat) (w : Word) : st.writeWord k w = st := by
  rw [Store.writeWord, h]

/-! ### Completion and emptying (R44, R50) -/

theorem Store.complete_of_filling {st : Store} {i : Fin 4} (h : st.filling = some i) (d : Bool) (f : List Word) :
    st.complete d f
      = { st.modify i (fun b => b.take (st.frameCount + 1) d f) with frameCount := st.frameCount + 1 } := by
  rw [Store.complete, h]

theorem Store.complete_buffer {st : Store} {i : Fin 4} (h : st.filling = some i) (d : Bool) (f : List Word) (j : Fin 4) :
    (st.complete d f).buffers.get j = if j = i then (st.buffers.get i).take (st.frameCount + 1) d f else st.buffers.get j := by
  rw [st.complete_of_filling h]
  exact st.modify_buffer i j fun b => b.take (st.frameCount + 1) d f

/-- The words of a buffer begin with those of the frame that it took. -/
theorem getD_overwrite {new : List Word} (old : List Word) {k : Nat} (h : k < new.length) :
    (overwrite new old).getD k 0 = new.getD k 0 := by
  simp [overwrite, List.getD_eq_getElem?_getD, List.getElem?_append_left h]

/-- Settles O24. -/
theorem completionAndEmptying : Obligations.CompletionAndEmptying := by
  refine ⟨fun slots bits => ⟨length_fullFrame _ _, length_shortFrame _ _, fun k hk => ⟨fun j hj => ?bit, ?short⟩⟩,
    fun n b s hr => ?clock, fun st d f => ⟨fun i hi => ?filling, fun hf hd => ?discard, fun hf hd => ?none⟩,
    fun st i => ⟨rfl, rfl, rfl, ?empty⟩⟩
  case bit => rw [getD_fullFrame bits hk, slotWord_getLsbD bits k hj]
  case short => rw [getD_shortFrame bits hk, getD_fullFrame bits hk]
  case clock =>
    have counting : s.counting n = true := by simp [State.counting, hr]
    have stores := fun x => bitClock_stores n x b s
    have received := bitClock_received n b s
    rw [counting, if_pos rfl] at received
    have line := stores n
    rw [if_pos ⟨rfl, hr⟩] at line
    refine ⟨bitClock_onlyChanges n b s, fun m hm => by rw [stores, if_neg (fun h => hm h.1)], received,
      fun k i hlen hk hi => ?_, fun h => ?_⟩
    · rw [formedWord_of_slot hlen hk] at line
      rw [line]
      refine ⟨?_, fun j hj => ?_⟩
      · rw [Store.writeWord_of_filling hi, if_pos rfl, getD_fullFrame _ hk]
      · rw [Store.writeWord_of_filling hi, if_neg hj]
    · refine Tab.ext_get fun x => ?_
      rw [stores]
      split
      · next hx =>
        rw [hx.1]
        obtain hf | h := h
        · split
          · rw [Store.writeWord_of_none hf]
          · rfl
        · rw [formedWord_eq_none h]
      · rfl
  case filling =>
    have buffer := fun j => st.complete_buffer hi d f j
    have own := buffer i
    rw [if_pos rfl] at own
    rw [own]
    refine ⟨by rw [st.complete_of_filling hi], rfl, rfl, rfl, rfl, fun k hk => getD_overwrite _ hk, fun y => ?_,
      fun j hj => by rw [buffer, if_neg hj]⟩
    simp [Buffer.take, LineSet.empty]
  case discard =>
    rw [Store.complete, hf, hd]
    exact ⟨rfl, rfl, rfl⟩
  case none => rw [Store.complete, hf, hd]; rfl
  case empty =>
    rw [Store.emptied_buffer, Buffer.emptied]
    refine ⟨fun h => by rw [h], fun h => by rw [h]; exact ⟨rfl, rfl⟩, fun h hu => ?_, fun y h hy => ?_, fun h => by rw [h]⟩
    · rw [h]; dsimp only
      rw [if_pos ((isEmpty_iff _).mpr hu)]
      exact ⟨rfl, rfl, rfl⟩
    · rw [h]; dsimp only
      rw [if_neg (fun he => by rw [(isEmpty_iff _).mp he y] at hy; cases hy)]

/-! ### Acquisition (R45, R46) -/

/-- The first of the four buffers with a property. -/
theorem find_buffer (p : Fin 4 → Bool) (i : Fin 4) :
    [0, 1, 2, 3].find? p = some i ↔ p i = true ∧ ∀ j, j < i → p j = false := by
  revert p i; decide

theorem find_buffer_eq_none (p : Fin 4 → Bool) : [0, 1, 2, 3].find? p = none ↔ ∀ i, p i = false := by
  revert p; decide

theorem Store.mem_reusable (st : Store) (i : Fin 4) (f : BitVec 32) : (i, f) ∈ st.reusable ↔
    (st.buffers.get i).state = .ready ∧ (st.buffers.get i).number = some f
      ∧ (∀ y, (st.buffers.get i).holders.get y = false) ∧ st.newest ≠ some (i, f) := by
  rw [Store.reusable, List.mem_filter, Store.mem_readyFrames, Bool.and_eq_true, isEmpty_iff, bne_iff_ne, and_assoc]

/-- No FREE buffer is left where the choice falls on a READY one or on none. -/
theorem Store.no_free_of_find {st : Store} (h : [0, 1, 2, 3].find? (fun i => (st.buffers.get i).state == .free) = none)
    (i : Fin 4) : (st.buffers.get i).state ≠ .free := by
  have := (find_buffer_eq_none _).mp h i
  exact beq_eq_false_iff_ne.mp this

/-- A number that lies fewer counts below the line frame count is the newer one (R38). -/
theorem newer_of_counts {c f g : BitVec 32} (hf : (c - f).toNat < 2 ^ 31) (h : (c - g).toNat < (c - f).toNat) :
    newer g f = true := by
  have hd : (g - f).toNat = (c - f).toNat - (c - g).toNat := by
    have : g - f = (c - f) - (c - g) := by ring
    rw [this, BitVec.toNat_sub_of_le (BitVec.le_def.mpr (Nat.le_of_lt h))]
  rw [newer, hd, Bool.and_eq_true, decide_eq_true_eq, decide_eq_true_eq]
  omega

/-- Where numbers compare, a store with a reusable buffer has an oldest one. -/
theorem Store.exists_oldest {st : Store} (hn : st.NumbersCompare) {i : Fin 4} {f : BitVec 32} (h : (i, f) ∈ st.reusable) :
    ∃ k ∈ st.reusable, (st.reusable.all fun g => g.1 == k.1 || newer g.2 k.2) = true := by
  obtain ⟨hbelow, hdistinct⟩ := hn
  obtain ⟨k, hk, hmax⟩ := Finset.exists_max_image st.reusable.toFinset (fun g => (st.frameCount - g.2).toNat)
    ⟨(i, f), List.mem_toFinset.mpr h⟩
  rw [List.mem_toFinset] at hk
  refine ⟨k, hk, List.all_eq_true.mpr fun g hg => ?_⟩
  obtain ⟨hkr, hkn, -, -⟩ := (st.mem_reusable k.1 k.2).mp hk
  obtain ⟨hgr, hgn, -, -⟩ := (st.mem_reusable g.1 g.2).mp hg
  have hle := hmax g (List.mem_toFinset.mpr hg)
  rw [Bool.or_eq_true, beq_iff_eq]
  obtain hlt | heq := Nat.lt_or_eq_of_le hle
  · exact .inr (newer_of_counts (hbelow k.1 k.2 hkr hkn) hlt)
  · have hnum : g.2 = k.2 := by
      have := BitVec.eq_of_toNat_eq heq
      exact sub_right_injective this
    exact .inl (hdistinct g.1 k.1 k.2 hgr hkr (hnum ▸ hgn) hkn)

/-- The choice of a buffer (R45). -/
theorem Store.choose_eq_some {st : Store} {i : Fin 4} (h : st.choose = some i) :
    ((st.buffers.get i).state = .free ∧ ∀ j, j < i → (st.buffers.get j).state ≠ .free)
    ∨ ((∀ j, (st.buffers.get j).state ≠ .free) ∧ ∃ f, (i, f) ∈ st.reusable
      ∧ ∀ j g, (j, g) ∈ st.reusable → j = i ∨ newer g f = true) := by
  unfold Store.choose at h
  split at h
  · next b hb =>
    cases h
    obtain ⟨hfree, hlow⟩ := (find_buffer _ _).mp hb
    exact .inl ⟨beq_iff_eq.mp hfree, fun j hj => beq_eq_false_iff_ne.mp (hlow j hj)⟩
  · next hnone =>
    obtain ⟨⟨b, f⟩, hf, rfl⟩ := Option.map_eq_some_iff.mp h
    have oldest := List.find?_some hf
    refine .inr ⟨st.no_free_of_find hnone, f, List.mem_of_find?_eq_some hf, fun j g hg => ?_⟩
    simpa using List.all_eq_true.mp oldest (j, g) hg

/-- No buffer is chosen: none is FREE, and among the reusable ones none is the oldest. -/
theorem Store.choose_eq_none {st : Store} (h : st.choose = none) : (∀ i, (st.buffers.get i).state ≠ .free)
    ∧ ∀ k ∈ st.reusable, ¬ (st.reusable.all fun g => g.1 == k.1 || newer g.2 k.2) = true := by
  unfold Store.choose at h
  split at h
  · cases h
  · next hnone => exact ⟨st.no_free_of_find hnone, List.find?_eq_none.mp (Option.map_eq_none_iff.mp h)⟩

/-- An overrun of a run that has begun sends nothing; the first of a run sends its event (R46). -/
theorem overrun_evq (n : Line) (s : State) : ((s.stores.get n).overrunRun = true → (overrun n s).evq = s.evq)
    ∧ ((s.stores.get n).overrunRun = false → s.evq.records.length < 32 →
      (overrun n s).evq.records = s.evq.records ++ [⟨.overrun, n, 0, 1, 0, s.stampOf n⟩]) := by
  unfold overrun
  refine ⟨fun h => by rw [h]; rfl, fun h hroom => ?_⟩
  rw [h]
  exact sendEvent_records .overrun n 0 (s := countUp n OVERRUNS s) hroom

/-- Settles O25. -/
theorem acquisitionProtectsHeldAndNewest : Obligations.AcquisitionProtectsHeldAndNewest := by
  refine ⟨fun st i h => ?choice, fun st hn h i => ?empty, fun p s i h => ?some, fun p s h => ?none⟩
  case choice =>
    obtain hfree | ⟨hnone, f, hf, hold⟩ := st.choose_eq_some h
    · exact .inl hfree
    · obtain ⟨hready, hnumber, hheld, hnewest⟩ := (st.mem_reusable i f).mp hf
      refine .inr ⟨hready, hnone, hheld, f, hnumber, hnewest, fun j g hj hr hg hu hw => ?_⟩
      exact (hold j g ((st.mem_reusable j g).mpr ⟨hr, hg, hu, hw⟩)).resolve_left hj
  case empty =>
    obtain ⟨hfree, hold⟩ := st.choose_eq_none h
    refine ⟨hfree i, fun f hr hf hu => ?_⟩
    by_contra hw
    obtain ⟨k, hk, holdest⟩ := st.exists_oldest hn ((st.mem_reusable i f).mpr ⟨hr, hf, hu, hw⟩)
    exact hold k hk holdest
  case some =>
    have stores := fun m => acquire_stores p.line m s
    have own := stores p.line
    rw [if_pos rfl, h] at own
    refine ⟨?_, fun m hm => by rw [stores, if_neg hm], ?_, by rw [own], fun j hj => ?_⟩
    · rw [acquire, h]
      exact withStores_onlyChanges s _
    · rw [own]
      change (((s.stores.get p.line).modify i fun b => b.become .filling).buffers.get i).state = _
      rw [Store.modify_buffer, if_pos rfl]
      rfl
    · rw [own]
      change ((s.stores.get p.line).modify i fun b => b.become .filling).buffers.get j = _
      rw [Store.modify_buffer, if_neg hj]
  case none =>
    obtain ⟨hfree, -⟩ := (s.stores.get p.line).choose_eq_none h
    have stores := fun m => acquire_stores p.line m s
    have counters := fun m k => acquire_counter p.line m k s
    have evq : (acquire p.line s).evq = (overrun p.line s).evq := by
      rw [acquire, h]; rfl
    obtain ⟨run, first⟩ := overrun_evq p.line s
    refine ⟨hfree, ?_, fun m hm => by rw [stores, if_neg hm], fun m hm => ?_, by rw [stores, if_pos rfl, h], fun k => ?_,
      fun hrun => by rw [evq, run hrun], fun hrun hroom => by rw [evq, first hrun hroom]⟩
    · intro f hf; cases f <;> simp [Field.same] at hf ⊢
    · refine Tab.ext_get fun k => ?_
      have := counters m k
      rw [if_neg (fun c => hm c.2.1)] at this
      exact this
    · rw [counters]
      by_cases hk : k = OVERRUNS
      · rw [if_pos ⟨h, rfl, hk⟩, if_pos hk, hk]
      · rw [if_neg (fun c => hk c.2.2), if_neg hk]

end Sys2Proof.Machine
end

section
set_option Elab.async false -- one proof after the other, within the check's limit on threads
/-! Selection, slips and fixed frames (Chapters 2, 4 and 7): the settling of obligations O23, O27, O28 and O29. -/

namespace Sys2Proof.Machine

/-! ### The check word (R24 to R26, R31) -/

theorem frameSum_lt (ws : List Word) : frameSum ws < 4096 := Nat.mod_lt _ (by decide)

/-- The fields of a check word. -/
theorem checkWord_fields (counter : BitVec 4) {sum : Nat} (h : sum < 4096) :
    checkCounter (checkWord counter sum) = counter ∧ checkSumField (checkWord counter sum) = sum := by
  have hc := counter.isLt
  constructor
  · refine BitVec.eq_of_toNat_eq ?_
    rw [checkCounter, checkWord, field_ofNat _ _ _ (by omega), BitVec.toNat_ofNat]
    omega
  · rw [checkSumField, checkWord, field_ofNat _ _ _ (by omega)]
    omega

/-- Settles O23: the receiver finds the sum and the counter that the transmitter put into the check word. -/
theorem checkWordIsAcceptedByAReceiver : Obligations.CheckWordIsAcceptedByAReceiver := by
  intro counter slot0 slots l hl
  obtain ⟨hcounter, hsum⟩ := checkWord_fields counter (frameSum_lt (slots.map fun w => w.getD 0))
  have received : (withCheck true counter (slot0 :: slots)).map (fun w => w.getD 0)
      = frameCheckWord counter slots :: slots.map fun w => w.getD 0 := rfl
  rw [received, judge, if_neg Bool.false_ne_true, if_pos hl]
  simp only [List.headD_cons, List.drop_succ_cons, List.drop_zero, frameCheckWord, hcounter, hsum, bne_self_eq_false]
  cases l.rxRef with
  | none => rfl
  | some r =>
    have follows : (counter != r + 1) = (some r != some (counter - 1)) := by
      rw [Bool.eq_iff_iff, bne_iff_ne, bne_iff_ne, ne_eq, ne_eq, Option.some_inj, eq_sub_iff_add_eq, eq_comm]
    exact congrArg (fun gap => (⟨false, false, gap, some counter⟩ : Verdict)) follows

/-! ### Fixed frames (R114 to R120) -/

@[simp] theorem length_fixSlots (stores : Tab Store 9) (views : Tab (Option View) 9) (program : List MapEntry) :
    ∀ ls, (fixSlots stores views program ls).length = program.length := by
  induction program with
  | nil => intro ls; rfl
  | cons e es ih => intro ls; simp [fixSlots, ih]

theorem getD_fixSlots (stores : Tab Store 9) (views : Tab (Option View) 9) (program : List MapEntry) :
    ∀ (ls : List Word) (i : Nat), i < program.length → (fixSlots stores views program ls).getD i none
      = fixSlot stores views (program.getD i .zero) (ls.getD i 0) := by
  induction program with
  | nil => intro ls i h; exact absurd h (Nat.not_lt_zero i)
  | cons e es ih =>
    intro ls i h
    cases i with
    | zero => cases ls <;> rfl
    | succ i =>
      rw [fixSlots, List.getD_cons_succ, List.getD_cons_succ, ih ls.tail i (Nat.lt_of_succ_lt_succ h)]
      cases ls <;> rfl

/-- The sum of a check word. -/
theorem frameCheckWord_eq (counter : BitVec 4) (slots : FixedFrame) : frameCheckWord counter slots
    = BitVec.ofNat 16 (counter.toNat * 4096 + (slots.foldl (fun sum w => sum + (w.getD 0).toNat) 0) % 4096) := by
  rw [frameCheckWord, checkWord, frameSum, List.foldl_map, Nat.mod_mod]
  rfl

theorem length_updateLast (f : FixedFrame) : ∀ ls : List Word, (updateLast f ls).length = ls.length := by
  induction f with
  | nil => intro ls; rfl
  | cons w ws ih => intro ls; cases ls <;> simp [updateLast, ih]

/-- Each driven slot writes its word. -/
theorem getD_updateLast (f : FixedFrame) : ∀ (ls : List Word) (i : Nat), i < ls.length →
    (updateLast f ls).getD i 0 = (f.getD i none).getD (ls.getD i 0) := by
  induction f with
  | nil => intro ls i _; simp [updateLast]
  | cons w ws ih =>
    intro ls i h
    cases ls with
    | nil => exact absurd h (Nat.not_lt_zero i)
    | cons l ls =>
      cases i with
      | zero => rfl
      | succ i => exact ih ls i (Nat.lt_of_succ_lt_succ h)

theorem substitute_eq (e : MapEntry) (last : Word) : substitute e last = if e.policy = .fill then e.value else last := by
  unfold substitute; cases e.policy <;> rfl

/-- Settles O28: Table 7-1 along the match of `fixSlot`. -/
theorem slotIsFixedByItsEntry : Obligations.SlotIsFixedByItsEntry := by
  refine ⟨fun stores views e last => ⟨fun h => ?_, fun h => ?_, fun h hv => ?_, fun h hv => ?_, fun b k d h hv => ?_⟩,
    fun stores views program ls => ⟨length_fixSlots _ _ _ _, getD_fixSlots stores views program ls⟩,
    fun counter slot0 slots => ⟨rfl, ?_⟩, fun f ls => ⟨length_updateLast f ls, getD_updateLast f ls⟩⟩
  · rw [fixSlot, h]
  · rw [fixSlot, h]
  · simp only [fixSlot, h, hv]
    cases e.policy <;> rfl
  · simp only [fixSlot, h, hv, substitute_eq]
  · simp only [fixSlot, h, hv, substitute_eq]
    refine ⟨fun hk => by rw [if_pos hk], fun hk hd => ?_⟩
    rw [if_neg (by rw [hd]; simpa using hk)]
  · rw [withCheck, if_pos rfl, frameCheckWord_eq]

/-! ### Slips (R64 to R66) -/

theorem classify_some (c n : BitVec 32) : classify (some c) n = if n - c = 0 then .repeated
    else if n - c = 1 ∨ 2 ^ 31 ≤ (n - c).toNat then .none else .dropped ((n - c).toNat - 1) := by
  have zero : (n - c).toNat = 0 ↔ n - c = 0 := by rw [← BitVec.toNat_inj]; rfl
  have one : (n - c).toNat = 1 ↔ n - c = 1 := by rw [← BitVec.toNat_inj]; rfl
  simp only [classify, zero, one]
  by_cases h0 : n - c = 0
  · rw [if_pos h0, if_pos h0]
  · rw [if_neg h0, if_neg h0]
    by_cases h1 : n - c = 1
    · rw [if_pos h1, if_pos (.inl h1)]
    · rw [if_neg h1]
      by_cases h2 : (n - c).toNat < 2 ^ 31
      · rw [if_pos h2, if_neg (fun h => h.elim h1 (Nat.not_le.mpr h2))]
      · rw [if_neg h2, if_pos (.inr (Nat.not_lt.mp h2))]

/-- A counter that a list of lines raises, each by at most one. -/
theorem foldl_counter {f : State → Line → State} {y : Line} {k : Fin 8} {raises : Line → Bool}
    (h : ∀ u x, (f u x).counter y k = if raises x = true then satInc (u.counter y k) else u.counter y k) (l : List Line) :
    ∀ s : State, ((l.foldl f s).counter y k).toNat
      = min 65535 ((s.counter y k).toNat + (l.filter raises).length) := by
  induction l with
  | nil => intro s; have := (s.counter y k).isLt; simp; omega
  | cons x l ih =>
    intro s
    rw [List.foldl_cons, ih, h]
    by_cases hx : raises x = true
    · rw [if_pos hx, List.filter_cons_of_pos hx, List.length_cons, satInc_toNat]; omega
    · rw [if_neg hx, List.filter_cons_of_neg hx]

/-- What the queue takes of a slip event rests on the queue, the interrupt and the stamp. -/
theorem sendSlip_congr {u v : State} (he : u.evq = v.evq) (hi : u.irq = v.irq) {y : Line} (hs : u.stampOf y = v.stampOf y)
    (k : EventKind) (x : Line) (n : Nat) :
    (sendSlip k y x n u).evq = (sendSlip k y x n v).evq ∧ (sendSlip k y x n u).irq = (sendSlip k y x n v).irq := by
  unfold sendSlip appendRecord
  rw [he, hi, hs]
  split
  · exact ⟨rfl, hi⟩
  · split
    · exact ⟨rfl, hi⟩
    · exact ⟨rfl, rfl⟩

/-- The slip of each choice that line `y` makes. -/
def State.slipOf (s : State) (y : Line) (program : List MapEntry) (x : Line) : Slip :=
  (choiceOf s (s.lines.get y).config.checkEnable program x).slip ((s.readers.get y).get x).cursor

/-- The event of a slip (R65). -/
def sendReport (y x : Line) (slip : Slip) (s : State) : State :=
  match slip with
  | .none => s
  | .repeated => sendSlip .slipRepeat y x 0 s
  | .dropped skipped => sendSlip .slipDrop y x skipped s

/-- What the queue takes of a slip report. -/
theorem reportSlip_congr {u v : State} {y : Line} (h : u.evq = v.evq ∧ u.irq = v.irq ∧ u.stampOf y = v.stampOf y)
    (x : Line) (slip : Slip) : (reportSlip y x slip u).evq = (sendReport y x slip v).evq
      ∧ (reportSlip y x slip u).irq = (sendReport y x slip v).irq
      ∧ (reportSlip y x slip u).stampOf y = (sendReport y x slip v).stampOf y := by
  obtain ⟨he, hi, hs⟩ := h
  have stamp : ∀ a b : State, a.stores = u.stores → b.stores = v.stores → a.stampOf y = b.stampOf y := fun a b ha hb => by
    simpa only [State.stampOf, ha, hb] using hs
  cases slip with
  | none => exact ⟨he, hi, hs⟩
  | repeated =>
    have sent := sendSlip_congr (u := countUp y REPEAT_SLIPS u) (v := v) he hi hs .slipRepeat x 0
    exact ⟨sent.1, sent.2, stamp _ _ (by simp [reportSlip]) (by simp [sendReport])⟩
  | dropped k =>
    have sent := sendSlip_congr (u := countUp y DROP_SLIPS u) (v := v) he hi hs .slipDrop x k
    exact ⟨sent.1, sent.2, stamp _ _ (by simp [reportSlip]) (by simp [sendReport])⟩

/-- A selection leaves the line frame counts. -/
theorem selected_stampOf (y : Line) (program : List MapEntry) (s : State) (n : Line) :
    (selected y program s).stampOf n = s.stampOf n := by
  simp only [State.stampOf, selected, State.withTxas_stores, State.withStores_stores, Tab.get_of]
  cases choiceOf s (s.lines.get y).config.checkEnable program n <;> rfl

/-- A selection counts slips of its own line alone. -/
theorem selectSources_counters_other {y m : Line} (program : List MapEntry) (s : State) (hm : m ≠ y) :
    (selectSources y program s).counters.get m = s.counters.get m := by
  rw [selectSources_eq]
  refine foldl_invariant (fun t => t.counters.get m = s.counters.get m) _ (fun t x ht => ?_) _ _ rfl
  refine Eq.trans (Tab.ext_get fun k => ?_) ht
  have := reportSlip_counter y x m (s.slipOf y program x) k t
  rw [if_neg (fun c => hm c.1), if_neg (fun c => hm c.1)] at this
  exact this

/-- Settles O27. -/
theorem slipsAreClassifiedAndCounted : Obligations.SlipsAreClassifiedAndCounted := by
  refine ⟨fun n => rfl, classify_some, fun y program s => ?_⟩
  have before : ∀ k, (selected y program s).counter y k = s.counter y k := fun k => counter_congr rfl y k
  have reports : selectSources y program s
      = allLines.foldl (fun u x => reportSlip y x (s.slipOf y program x) u) (selected y program s) := rfl
  rw [reports]
  refine ⟨?repeats, ?drops, fun k hr hd => ?others, fun m hm => ?lines, ?events⟩
  case repeats =>
    rw [← before]
    refine foldl_counter (raises := fun x => decide (s.slipOf y program x = .repeated)) (fun u x => ?_) allLines _
    rw [reportSlip_counter]
    by_cases h : s.slipOf y program x = .repeated
    · rw [if_pos ⟨rfl, rfl, h⟩, if_pos (decide_eq_true h)]
    · rw [if_neg (fun c => h c.2.2), if_neg (fun c => absurd c.2.1 (by decide)), if_neg (by simpa using h)]
  case drops =>
    rw [← before]
    refine foldl_counter (raises := fun x => decide (s.slipOf y program x ≠ .none ∧ s.slipOf y program x ≠ .repeated))
      (fun u x => ?_) allLines _
    rw [reportSlip_counter, if_neg (fun c => absurd c.2.1 (by decide))]
    by_cases h : s.slipOf y program x ≠ .none ∧ s.slipOf y program x ≠ .repeated
    · rw [if_pos ⟨rfl, rfl, h⟩, if_pos (decide_eq_true h)]
    · rw [if_neg (fun c => h c.2.2), if_neg (by simpa using h)]
  case others =>
    rw [← before]
    refine foldl_invariant (fun t => t.counter y k = (selected y program s).counter y k) _ (fun t x ht => ?_) _ _ rfl
    rw [reportSlip_counter, if_neg (fun c => hr c.2.1), if_neg (fun c => hd c.2.1)]
    exact ht
  case lines =>
    exact selectSources_counters_other program s hm
  case events =>
    have taken := List.foldl_rel (l := allLines) (r := fun u v : State => u.evq = v.evq ∧ u.irq = v.irq ∧ u.stampOf y = v.stampOf y)
      (f := fun u x => reportSlip y x (s.slipOf y program x) u) (g := fun v x => sendReport y x (s.slipOf y program x) v)
      (a := selected y program s) (b := s) ⟨rfl, rfl, selected_stampOf y program s y⟩
      (fun x _ u v h => reportSlip_congr h x _)
    have sent : (fun v x => sendReport y x (s.slipOf y program x) v) = fun u x => match s.slipOf y program x with
        | .none => u
        | .repeated => sendSlip .slipRepeat y x 0 u
        | .dropped skipped => sendSlip .slipDrop y x skipped u := by
      funext v x
      unfold sendReport
      split <;> rfl
    rw [sent] at taken
    exact ⟨taken.1, taken.2.1⟩

/-! ### The slot 0 entry of a checked line (R27) -/

/-- A slip report does not see the assemblers. -/
theorem reportSlip_withTxas (y x : Line) (slip : Slip) (u : State) (a : Tab Assembler 9) :
    reportSlip y x slip (u.withTxas a) = (reportSlip y x slip u).withTxas a := by
  have sent : ∀ (k : EventKind) (n : Nat) (v : State), sendSlip k y x n (v.withTxas a) = (sendSlip k y x n v).withTxas a := by
    intro k n v
    by_cases hm : (v.evq.records.any fun r => r.isSlipOf k y x) = true
    · rw [sendSlip, State.withTxas_evq, if_pos hm, sendSlip, if_pos hm]
      rfl
    · rw [sendSlip, State.withTxas_evq, if_neg hm, sendSlip, if_neg hm, appendRecord, State.withTxas_evq, appendRecord]
      split <;> rfl
  cases slip with
  | none => rfl
  | repeated => exact sent .slipRepeat 0 (countUp y REPEAT_SLIPS u)
  | dropped k => exact sent .slipDrop k (countUp y DROP_SLIPS u)

/-- The selections under two programs that differ in the entry of slot 0 alone differ in the program that the assembler keeps. -/
theorem selectSources_slot0 {y : Line} {s : State} (h : (s.lines.get y).config.checkEnable = true) (e e' : MapEntry)
    (rest : List MapEntry) : selectSources y (e' :: rest) s
      = (selectSources y (e :: rest) s).withTxas ((selectSources y (e :: rest) s).txas.put y
          { (selectSources y (e :: rest) s).txas.get y with program := some (e' :: rest) }) := by
  have choices : choiceOf s (s.lines.get y).config.checkEnable (e' :: rest)
      = choiceOf s (s.lines.get y).config.checkEnable (e :: rest) := by rw [h]; rfl
  have start : selected y (e' :: rest) s
      = (selected y (e :: rest) s).withTxas (selected y (e' :: rest) s).txas := by
    unfold selected; rw [choices]; rfl
  have txas : (selected y (e' :: rest) s).txas = (selectSources y (e :: rest) s).txas.put y
      { (selectSources y (e :: rest) s).txas.get y with program := some (e' :: rest) } := by
    obtain ⟨-, -, kept⟩ := selectSources_eq_selected y (e :: rest) s
    rw [kept]
    refine Tab.ext_get fun m => ?_
    unfold selected
    rw [choices]
    by_cases hm : m = y <;> simp [hm]
  rw [← txas, selectSources_eq, choices, start, selectSources_eq]
  exact List.foldl_hom (fun u : State => u.withTxas (selected y (e' :: rest) s).txas) fun u x => reportSlip_withTxas y x _ u _

/-- The frame of a checked line is fixed without the entry of slot 0. -/
theorem withCheck_slot0 (counter : BitVec 4) (w w' : Option Word) (ws : FixedFrame) :
    withCheck true counter (w :: ws) = withCheck true counter (w' :: ws) := rfl

/-- Settles O29: the selections differ in the kept program alone, and the check word stands in place of slot 0. -/
theorem slotZeroEntryOfACheckedLineIsIgnored : Obligations.SlotZeroEntryOfACheckedLineIsIgnored := by
  intro y e e' rest s h
  have same := selectSources_slot0 h e e' rest
  have lines : (selectSources y (e :: rest) s).lines = s.lines := by simp
  have program : ((selectSources y (e :: rest) s).txas.get y).program = some (e :: rest) := by
    rw [(selectSources_eq_selected y (e :: rest) s).2.2]
    simp [selected]
  generalize selectSources y (e :: rest) s = t at same lines program
  dsimp only
  rw [same]
  have check : (t.lines.get y).config.checkEnable = true := by rw [lines]; exact h
  have frame : ∀ a : Tab Assembler 9, a = t.txas.put y { t.txas.get y with program := some (e' :: rest) } →
      ((fixFrame y (t.withTxas a)).txas.get y).fixed = ((fixFrame y t).txas.get y).fixed
      ∧ ((fixFrame y (t.withTxas a)).txas.get y).lastWords = ((fixFrame y t).txas.get y).lastWords := by
    rintro a rfl
    simp only [fixFrame, State.withTxas_txas, State.withLines_txas, State.withTxas_lines, State.withTxas_stores, check, program,
      Tab.get_put, if_true, Option.getD_some, fixSlots]
    exact ⟨rfl, rfl⟩
  obtain ⟨hfixed, hlast⟩ := frame _ rfl
  refine ⟨hfixed.symm, hlast.symm, fun f hf => ?_⟩
  cases f <;> simp [Field.same, fixFrame] at hf ⊢

end Sys2Proof.Machine
end

section
set_option Elab.async false -- one proof after the other, within the check's limit on threads
/-! A completed frame (Chapters 2, 3 and 9): the settling of obligation O22. -/

namespace Sys2Proof.Machine

/-! ### Records of an own cause (R152, R154) -/

/-- The FAULTs of a gain rest on what the gaining lines hold and stamp. -/
theorem groupFaults_congr_on {s t : State} {g : Line → Bool}
    (h : ∀ m, g m = true → t.causes.get m = s.causes.get m ∧ t.stampOf m = s.stampOf m) :
    groupFaults t g = groupFaults s g := by
  have members : (allLines.filter fun m => g m && !(t.causes.get m).group)
      = allLines.filter fun m => g m && !(s.causes.get m).group := by
    refine List.filter_congr fun m _ => ?_
    cases hg : g m with
    | false => rfl
    | true => rw [(h m hg).1]
  rw [groupFaults, groupFaults, members]
  refine List.map_congr_left fun m hm => ?_
  obtain ⟨hg, -⟩ := (Bool.and_eq_true _ _).mp (List.mem_filter.mp hm).2
  rw [(h m hg).2]

theorem otherMember_self (s : State) (n : Line) : s.otherMember n n = false := by simp [State.otherMember]

/-- A new own cause sends its FAULT, and under ISOLATE_GROUP those of the other lines of the group follow. -/
theorem addOwnCause_records (n : Line) (c : Cause) {s : State} (hc : (s.causes.get n).has c = false)
    (hroom : s.evq.records.length ≤ 23) : (addOwnCause n c s).evq.records
      = s.evq.records ++ [⟨.fault, n, 0, 1, c.code, s.stampOf n⟩]
        ++ (if s.policyOf n = .isolateGroup then groupFaults s (s.otherMember n) else []) := by
  have first := addCause_records n c hc (s := s) (by omega)
  rw [addOwnCause, hc, if_neg Bool.false_ne_true]
  split
  · have faults : groupFaults (addCause n c s) (s.otherMember n) = groupFaults s (s.otherMember n) :=
      groupFaults_congr_on fun m hm => by
        have hne : m ≠ n := fun h => by rw [h, otherMember_self] at hm; cases hm
        exact ⟨by rw [addCause_causes, if_neg hne], by simp [State.stampOf]⟩
    have few : (groupFaults s (s.otherMember n)).length ≤ 8 := groupFaults_length_of_not (otherMember_self s n)
    rw [giveGroup_records _ (by rw [faults, first, List.length_append, List.length_singleton]; omega), faults, first]
  · rw [first, List.append_nil]

theorem addOwnCause_of_has {n : Line} {c : Cause} {s : State} (h : (s.causes.get n).has c = true) : addOwnCause n c s = s :=
  if_pos h

/-! ### The verdict (Table 2-1) -/

/-- The verdict on a frame, column by column. -/
theorem judge_eq (l : LineUnit) (frame : List Word) (short : Bool) : judge l frame short =
    { damaged := (l.config.checkEnable && !short && frameSum (frame.drop 1) != checkSumField (frame.headD 0)) || short
      checkError := l.config.checkEnable && !short && frameSum (frame.drop 1) != checkSumField (frame.headD 0)
      seqGap := l.config.checkEnable && !short && l.rxRef.isSome && l.rxRef != some (checkCounter (frame.headD 0) - 1)
      ref := if (l.config.checkEnable && !short) = true then some (checkCounter (frame.headD 0)) else l.rxRef } := by
  unfold judge
  cases short with
  | true => cases l.config.checkEnable <;> rfl
  | false =>
    cases l.config.checkEnable with
    | false => rfl
    | true =>
      cases hr : l.rxRef with
      | none => simp
      | some r =>
        have follows : (checkCounter (frame.headD 0) != r + 1) = (some r != some (checkCounter (frame.headD 0) - 1)) := by
          rw [Bool.eq_iff_iff, bne_iff_ne, bne_iff_ne, ne_eq, ne_eq, Option.some_inj, eq_sub_iff_add_eq, eq_comm]
        rw [← follows]
        simp

/-- The completion of a frame. -/
theorem receiveBoundary_of_receiving {n : Line} (frame : List Word) (short : Bool) {s : State}
    (h : (s.stores.get n).receiving = true) : receiveBoundary n frame short s
      = advanceWindow n (judge (s.lines.get n) frame short).damaged (acquire n
        (modifyStore n (fun st => st.complete (judge (s.lines.get n) frame short).damaged frame)
          (report n (judge (s.lines.get n) frame short) s))) := if_pos h

/-- What a completion counts. -/
theorem report_counter (n : Line) (v : Verdict) (s : State) (k : Fin 8) : (report n v s).counter n k
    = if (v.damaged = true ∧ k = DAMAGED_FRAMES) ∨ (v.seqGap = true ∧ k = SEQ_GAPS)
        ∨ (v.checkError = true ∧ k = CHECK_ERRORS) then satInc (s.counter n k) else s.counter n k := by
  have base : ∀ j, (s.withLines (s.lines.put n { s.lines.get n with rxRef := v.ref })).counter n j = s.counter n j :=
    fun _ => rfl
  simp only [report, countUpIf_counter, base, true_and]
  by_cases h6 : k = DAMAGED_FRAMES
  · subst h6; simp [DAMAGED_FRAMES, SEQ_GAPS, CHECK_ERRORS]
  by_cases h1 : k = SEQ_GAPS
  · subst h1; simp [DAMAGED_FRAMES, SEQ_GAPS, CHECK_ERRORS]
  by_cases h0 : k = CHECK_ERRORS
  · subst h0; simp [DAMAGED_FRAMES, SEQ_GAPS, CHECK_ERRORS]
  · simp [h6, h1, h0]

/-- The counters of a line after a frame has completed. -/
theorem receiveBoundary_counter (n : Line) (frame : List Word) (short : Bool) {s : State}
    (h : (s.stores.get n).receiving = true) {k : Fin 8} (hk : k ≠ OVERRUNS) :
    (receiveBoundary n frame short s).counter n k
      = (report n (judge (s.lines.get n) frame short) s).counter n k := by
  have window : ∀ d u, (advanceWindow n d u).counter n k = u.counter n k := fun d u => counter_congr (by simp) n k
  rw [receiveBoundary_of_receiving frame short h, window, acquire_counter, if_neg (fun c => hk c.2.2)]
  exact counter_congr (by simp) n k

/-! ### The buffer that takes the frame (R38, R44) -/

/-- Of two numbers at most one is the newer (R38). -/
theorem newer_asymm {a b : BitVec 32} (h : newer a b = true) : newer b a = false := by
  rw [newer, Bool.and_eq_true, decide_eq_true_eq, decide_eq_true_eq] at h
  have hsum : (b - a).toNat = 2 ^ 32 - (a - b).toNat := by
    have hneg : b - a = -(a - b) := by ring
    rw [hneg, BitVec.toNat_neg, Nat.mod_eq_of_lt (by omega)]
  rw [newer, hsum, Bool.and_eq_false_iff, decide_eq_false_iff_not, decide_eq_false_iff_not]
  omega

/-- A READY buffer whose number is newer than those of the others holds the newest ready frame. -/
theorem Store.newest_of_newer {st : Store} {i : Fin 4} {f : BitVec 32} (h : (i, f) ∈ st.readyFrames)
    (hn : ∀ j g, (j, g) ∈ st.readyFrames → j = i ∨ newer f g = true) : st.newest = some (i, f) := by
  have good : (st.readyFrames.all fun g => g.1 == i || newer f g.2) = true :=
    List.all_eq_true.mpr fun g hg => by simpa using hn g.1 g.2 hg
  obtain ⟨⟨j, g⟩, hfind⟩ := Option.ne_none_iff_exists'.mp
    (fun hnone => List.find?_eq_none.mp hnone (i, f) h good : st.newest ≠ none)
  have hmem : (j, g) ∈ st.readyFrames := List.mem_of_find?_eq_some hfind
  have hall := List.find?_some hfind
  rw [hfind]
  by_cases hj : j = i
  · subst hj
    obtain ⟨-, hg⟩ := (st.mem_readyFrames j g).mp hmem
    obtain ⟨-, hf⟩ := (st.mem_readyFrames j f).mp h
    rw [hf] at hg
    cases hg; rfl
  · have hnew : newer g f = true := by
      have := List.all_eq_true.mp hall (i, f) h
      simpa [Ne.symm hj] using this
    have := newer_asymm hnew
    rw [(hn j g hmem).resolve_left hj] at this
    cases this

/-- The buffer that holds the newest ready frame is not chosen for the next one. -/
theorem Store.choose_ne_of_newest {st : Store} {i : Fin 4} {f : BitVec 32} (h : st.newest = some (i, f)) :
    st.choose ≠ some i := by
  have hmem : (i, f) ∈ st.readyFrames := List.mem_of_find?_eq_some h
  obtain ⟨hready, hnum⟩ := (st.mem_readyFrames i f).mp hmem
  intro hc
  obtain ⟨hfree, -⟩ | ⟨-, g, hg, -⟩ := st.choose_eq_some hc
  · rw [hfree] at hready; cases hready
  · obtain ⟨-, hgn, -, hne⟩ := (st.mem_reusable i g).mp hg
    rw [hnum] at hgn
    cases hgn
    exact hne h

/-- The buffer that takes a frame keeps it through the acquisition for the next. -/
theorem Store.complete_newest {st : Store} {i : Fin 4} (hi : st.filling = some i) (hn : st.NextNumberIsNewest) (d : Bool)
    (f : List Word) : (st.complete d f).newest = some (i, st.frameCount + 1) := by
  have buffer := fun j => st.complete_buffer hi d f j
  refine newest_of_newer ((mem_readyFrames ..).mpr (by rw [buffer, if_pos rfl]; exact ⟨rfl, rfl⟩)) fun j g hg => ?_
  by_cases hj : j = i
  · exact .inl hj
  · obtain ⟨hr, hnum⟩ := (mem_readyFrames ..).mp hg
    rw [buffer, if_neg hj] at hr hnum
    exact .inr (hn j g hr hnum)

theorem receiveBoundary_buffer {n : Line} (frame : List Word) (short : Bool) {s : State} {i : Fin 4}
    (hi : (s.stores.get n).filling = some i) (hn : (s.stores.get n).NextNumberIsNewest) :
    ((receiveBoundary n frame short s).stores.get n).buffers.get i = ((s.stores.get n).buffers.get i).take
      ((s.stores.get n).frameCount + 1) (judge (s.lines.get n) frame short).damaged frame := by
  have receiving : (s.stores.get n).receiving = true := by simp [Store.receiving, hi]
  have completed : ∀ u : State, (advanceWindow n (judge (s.lines.get n) frame short).damaged u).stores = u.stores :=
    fun u => by simp
  rw [receiveBoundary_of_receiving frame short receiving, completed, acquire_stores, if_pos rfl, modifyStore_stores, if_pos rfl, report_stores]
  have buffer := (s.stores.get n).complete_buffer hi (judge (s.lines.get n) frame short).damaged frame i
  rw [if_pos rfl] at buffer
  have kept := Store.choose_ne_of_newest ((s.stores.get n).complete_newest hi hn (judge (s.lines.get n) frame short).damaged frame)
  rw [← buffer]
  split
  · next k hk =>
    change (Store.modify _ k fun b => b.become .filling).buffers.get i = _
    rw [Store.modify_buffer, if_neg (fun hik => kept (hk.trans (congrArg some hik.symm)))]
  · rfl

/-! ### The damage window and DEGRADED (R148, R149) -/

/-- Whether the frame makes the damage window of the line reach the threshold (R149). -/
def State.windowReaches (s : State) (n : Line) (damaged : Bool) : Bool :=
  ((s.windows.get n).advance damaged).reaches (s.lines.get n).config.damageThreshold

theorem windowReaches_eq (s : State) (n : Line) (damaged : Bool) : s.windowReaches n damaged
    = (decide ((s.lines.get n).config.damageThreshold ≠ 0
        ∧ (s.lines.get n).config.damageThreshold ≤ (s.windows.get n).damaged + damaged.toNat)
      && !(s.windows.get n).reported) := by
  rw [Bool.eq_iff_iff]
  simp only [State.windowReaches, Window.reaches, Bool.and_eq_true, bne_iff_ne, decide_eq_true_eq]
  rfl

/-- The damage window after a frame has completed. -/
theorem receiveBoundary_window_eq {n : Line} (frame : List Word) (short : Bool) {s : State}
    (h : (s.stores.get n).receiving = true) : (receiveBoundary n frame short s).windows.get n
      = let d := (judge (s.lines.get n) frame short).damaged
        if (s.windows.get n).frames + 1 = 256 then ⟨0, 0, false⟩
        else ⟨(s.windows.get n).frames + 1, (s.windows.get n).damaged + d.toNat,
          (s.windows.get n).reported || s.windowReaches n d⟩ := by
  rw [receiveBoundary_window, if_pos h]
  dsimp only
  generalize (judge (s.lines.get n) frame short).damaged = d
  have reaches : ((s.windows.get n).advance d).reaches (s.lines.get n).config.damageThreshold = s.windowReaches n d := rfl
  rw [reaches]
  by_cases hf : (s.windows.get n).frames + 1 = 256
  · cases s.windowReaches n d <;> simp [Window.close, Window.advance, Config.windowFrames, hf, Window.reset]
  · cases s.windowReaches n d <;> simp [Window.close, Window.advance, Config.windowFrames, hf]

theorem receiveBoundary_causes {n : Line} (frame : List Word) (short : Bool) {s : State}
    (h : (s.stores.get n).receiving = true) (m : Line) : (receiveBoundary n frame short s).causes.get m
      = if s.windowReaches n (judge (s.lines.get n) frame short).damaged then (addOwnCause n .degraded s).causes.get m
        else s.causes.get m := by
  obtain ⟨windows, causes, policies, config⟩ := completed_frame n (judge (s.lines.get n) frame short) frame s
  rw [receiveBoundary_of_receiving frame short h, advanceWindow_causes, windows, config, addOwnCause_causes_congr causes policies config, causes]
  rfl

/-- The causes of the line and of the others after a frame has completed. -/
theorem receiveBoundary_causes_line {n : Line} (frame : List Word) (short : Bool) {s : State}
    (h : (s.stores.get n).receiving = true) :
    let reached := s.windowReaches n (judge (s.lines.get n) frame short).damaged
    (receiveBoundary n frame short s).causes.get n
        = { s.causes.get n with degraded := (s.causes.get n).degraded || reached }
      ∧ ∀ m, m ≠ n → (receiveBoundary n frame short s).causes.get m
        = if (reached && !(s.causes.get n).degraded && s.policyOf n == .isolateGroup) = true ∧ s.groupOf m = s.groupOf n then
            { s.causes.get m with group := true } else s.causes.get m := by
  intro reached
  constructor
  · rw [receiveBoundary_causes frame short h]
    change (if reached = true then _ else _) = _
    cases reached with
    | false => simp
    | true => rw [if_pos rfl, addOwnCause_causes, if_pos rfl, Bool.or_true]; rfl
  · intro m hm
    rw [receiveBoundary_causes frame short h]
    change (if reached = true then _ else _) = _
    cases reached with
    | false => simp
    | true =>
      rw [if_pos rfl, addOwnCause_causes, if_neg hm]
      refine if_congr ?_ rfl rfl
      simp [CauseSet.has, and_assoc]

/-- The records of an acquisition: an OVERRUN or none. -/
theorem acquire_records (n : Line) {s : State} (hroom : s.evq.records.length < 32) : ∃ overruns : List EventRecord,
    overruns.length ≤ 1 ∧ (∀ r ∈ overruns, r.kind = .overrun) ∧ (acquire n s).evq.records = s.evq.records ++ overruns := by
  unfold acquire
  split
  · exact ⟨[], by simp, by simp, by simp [modifyStore]⟩
  · obtain ⟨run, first⟩ := overrun_evq n s
    have evq : ∀ f u, (modifyStore n f u).evq = u.evq := fun f u => rfl
    rw [evq]
    cases hr : (s.stores.get n).overrunRun with
    | true => exact ⟨[], by simp, by simp, by rw [run hr, List.append_nil]⟩
    | false => exact ⟨_, by simp, by simp, first hr hroom⟩

/-- The records of a damage window that counts a frame: those of DEGRADED where it is new. -/
theorem advanceWindow_records (n : Line) (d : Bool) {s : State} (hroom : s.evq.records.length ≤ 23) :
    (advanceWindow n d s).evq.records = s.evq.records
      ++ (if (s.windowReaches n d && !(s.causes.get n).degraded) = true then
        [⟨.fault, n, 0, 1, 2, s.stampOf n⟩] ++ (if s.policyOf n = .isolateGroup then groupFaults s (s.otherMember n) else [])
        else []) := by
  unfold advanceWindow
  dsimp only
  have reaches : ((s.windows.get n).advance d).reaches (s.lines.get n).config.damageThreshold = s.windowReaches n d := rfl
  rw [reaches]
  cases hw : s.windowReaches n d with
  | false => simp
  | true =>
    rw [if_pos rfl, Bool.true_and]
    cases hd : (s.causes.get n).degraded with
    | true =>
      rw [addOwnCause_of_has (by simpa [CauseSet.has] using hd)]
      simp
    | false =>
      rw [addOwnCause_records n .degraded (by simpa [CauseSet.has] using hd) (by simpa using hroom), List.append_assoc]
      rfl

/-- The records of a frame that completes. -/
theorem receiveBoundary_records {n : Line} (frame : List Word) (short : Bool) {s : State}
    (h : (s.stores.get n).receiving = true) (hroom : s.evq.records.length ≤ 22) : ∃ overruns : List EventRecord,
    overruns.length ≤ 1 ∧ (∀ r ∈ overruns, r.kind = .overrun)
    ∧ (receiveBoundary n frame short s).evq.records = s.evq.records ++ overruns
      ++ (if (s.windowReaches n (judge (s.lines.get n) frame short).damaged && !(s.causes.get n).degraded) = true then
        [⟨.fault, n, 0, 1, 2, (receiveBoundary n frame short s).stampOf n⟩]
          ++ (if s.policyOf n = .isolateGroup then groupFaults s (s.otherMember n) else []) else []) := by
  obtain ⟨windows, causes, policies, config⟩ := completed_frame n (judge (s.lines.get n) frame short) frame s
  have stamp : ∀ d u, (advanceWindow n d u).stampOf n = u.stampOf n := fun d u => by simp [State.stampOf]
  rw [receiveBoundary_of_receiving frame short h, stamp]
  generalize hm : modifyStore n (fun st => st.complete (judge (s.lines.get n) frame short).damaged frame)
    (report n (judge (s.lines.get n) frame short) s) = m at windows causes policies config
  have evq : m.evq = s.evq := by rw [← hm]; simp
  have others : ∀ x, x ≠ n → (acquire n m).stampOf x = s.stampOf x := fun x hx => by
    rw [State.stampOf, acquire_stores, if_neg hx, ← hm, modifyStore_stores, if_neg hx, report_stores]; rfl
  obtain ⟨overruns, hlen, hkind, records⟩ := acquire_records n (s := m) (by rw [evq]; omega)
  refine ⟨overruns, hlen, hkind, ?_⟩
  have few : (acquire n m).evq.records.length ≤ 23 := by rw [records, evq, List.length_append]; omega
  have reaches : (acquire n m).windowReaches n = s.windowReaches n := funext fun d => by
    rw [State.windowReaches, windows, config]; rfl
  have member : (acquire n m).otherMember n = s.otherMember n := funext fun x => by
    rw [State.otherMember, groupOf_congr config, groupOf_congr config]; rfl
  have faults : groupFaults (acquire n m) (s.otherMember n) = groupFaults s (s.otherMember n) :=
    groupFaults_congr_on fun x hx => ⟨by rw [causes], others x fun hxn => by
      rw [hxn, otherMember_self] at hx; cases hx⟩
  rw [advanceWindow_records n _ few, reaches, causes, policyOf_congr policies config, member, faults, records, evq]

/-- Settles O22: the completion of a frame is `report`, `complete`, `acquire` and the count of the damage window. -/
theorem completedFrameIsJudged : Obligations.CompletedFrameIsJudged := by
  intro p frame short s h l checked bad gap w reached gains spreads t
  have verdict : judge l frame short
      = ⟨bad || short, bad, gap, if checked then some (checkCounter (frame.headD 0)) else l.rxRef⟩ := judge_eq l frame short
  have reaches : s.windowReaches p.line (bad || short) = reached := windowReaches_eq s p.line _
  have counters : ∀ k, k ≠ OVERRUNS → t.counter p.line k
      = if ((bad || short) = true ∧ k = DAMAGED_FRAMES) ∨ (gap = true ∧ k = SEQ_GAPS) ∨ (bad = true ∧ k = CHECK_ERRORS) then
          satInc (s.counter p.line k) else s.counter p.line k := fun k hk => by
    have := (receiveBoundary_counter p.line frame short h hk).trans (report_counter p.line _ s k)
    rwa [show judge (s.lines.get p.line) frame short = _ from verdict] at this
  have lines := receiveBoundary_lines p.line p.line frame short s
  have frameCount := receiveBoundary_frameCount p.line p.line frame short s
  have window := receiveBoundary_window_eq frame short h
  obtain ⟨own, others⟩ := receiveBoundary_causes_line frame short h
  have records := receiveBoundary_records frame short h
  rw [if_pos ⟨rfl, h⟩] at lines frameCount
  dsimp only at window own others
  rw [show judge (s.lines.get p.line) frame short = _ from verdict] at lines window own others records
  dsimp only at lines window own others records
  rw [reaches] at window own others records
  refine ⟨by rw [verdict], ?_, ?_, ?_, lines, frameCount, fun i hi hn => ?_, window, own, others, fun hroom => ?_⟩
  · rw [counters CHECK_ERRORS (by decide)]
    simp [CHECK_ERRORS, SEQ_GAPS, DAMAGED_FRAMES]
  · rw [counters SEQ_GAPS (by decide)]
    simp [CHECK_ERRORS, SEQ_GAPS, DAMAGED_FRAMES]
  · rw [counters DAMAGED_FRAMES (by decide)]
    simp [CHECK_ERRORS, SEQ_GAPS, DAMAGED_FRAMES]
  · have buffer := receiveBoundary_buffer frame short hi hn
    rwa [show judge (s.lines.get p.line) frame short = _ from verdict] at buffer
  · obtain ⟨overruns, hlen, hkind, hrec⟩ := records hroom
    refine ⟨overruns, hlen, hkind, ?_⟩
    rw [hrec, List.append_assoc (s.evq.records ++ overruns)]
    refine congrArg _ ?_
    have gains_eq : (reached && !(s.causes.get p.line).degraded) = gains := rfl
    have spreads_eq : spreads = (gains && s.policyOf p.line == .isolateGroup) := rfl
    rw [gains_eq, spreads_eq]
    cases gains with
    | false => rfl
    | true => simp [t]

end Sys2Proof.Machine
end

section
set_option Elab.async false -- one proof after the other, within the check's limit on threads
/-! The completion of a load and the pins of a line (Chapters 1, 4 and 7): the settling of obligations O26 and O30. -/

namespace Sys2Proof.Machine

/-! ### The choice of a reader (R59, R63, R64) -/

/-- A reader without a source, with a contained one or without a frame to take, holds nothing. -/
theorem choiceOf_of_no_frame {s : State} {check : Bool} {program : List MapEntry} {x : Line}
    (h : inSourceSet check program x = false ∨ s.containedSource x = true ∨ s.running x = false
      ∨ (s.stores.get x).newest = none) :
    choiceOf s check program x = if inSourceSet check program x = false then .outside
      else if s.containedSource x = true then .contained else .absent := by
  unfold choiceOf
  cases hin : inSourceSet check program x with
  | false => rfl
  | true =>
    cases hc : s.containedSource x with
    | true => rfl
    | false =>
      cases hr : s.running x with
      | false => rfl
      | true =>
        have hn : (s.stores.get x).newest = none := by simpa [hin, hc, hr] using h
        simp [hn]

theorem choiceOf_of_frame {s : State} {check : Bool} {program : List MapEntry} {x : Line} {b : Fin 4} {n : BitVec 32}
    (hin : inSourceSet check program x = true) (hc : s.containedSource x = false) (hr : s.running x = true)
    (hn : (s.stores.get x).newest = some (b, n)) : choiceOf s check program x = .take b n := by
  simp [choiceOf, hin, hc, hr, hn]

/-! ### The frame that a load fixes (R114, R119, R120) -/

/-- The frame that line `y` fixes. -/
def fixedBy (y : Line) (s : State) : FixedFrame :=
  withCheck (s.lines.get y).config.checkEnable (s.lines.get y).txCounter
    (fixSlots s.stores (s.txas.get y).views ((s.txas.get y).program.getD []) (s.txas.get y).lastWords)

theorem fixFrame_txas (y m : Line) (s : State) : (fixFrame y s).txas.get m = if m = y then
    { s.txas.get y with fixed := some (fixedBy y s), lastWords := updateLast (fixedBy y s) (s.txas.get y).lastWords }
    else s.txas.get m := by
  simp only [fixFrame, State.withLines_txas, State.withTxas_txas, Tab.get_put]
  rfl

@[simp] theorem length_withCheck (check : Bool) (counter : BitVec 4) (f : FixedFrame) :
    (withCheck check counter f).length = f.length := by cases f <;> rfl

theorem loadComplete_of_live {s : State} {y : Line} {program : List MapEntry}
    (h : s.arb.grant = some (.load y program true)) :
    loadComplete s = fixFrame y (selectSources y program (freePort s)) := by
  simp only [loadComplete, h, if_true]

theorem loadComplete_of_dead {s : State} {y : Line} {program : List MapEntry}
    (h : s.arb.grant = some (.load y program false)) : loadComplete s = freePort s := by
  simp only [loadComplete, h]
  rfl

/-- What a load selects for line `y`, before its frame is fixed: each reader, store and view by its choice, and the program. -/
theorem selectSources_spec (y : Line) (program : List MapEntry) (s : State) :
    let choice := choiceOf s (s.lines.get y).config.checkEnable program
    let u := selectSources y program s
    u.lines = s.lines ∧ (∀ x, (u.readers.get y).get x = (choice x).reader)
    ∧ (∀ m, m ≠ y → u.readers.get m = s.readers.get m)
    ∧ (∀ x, u.stores.get x = (choice x).store y (s.stores.get x))
    ∧ u.txas.get y = { s.txas.get y with
        program := some program, views := Tab.of fun x => (choice x).view (s.stores.get x) }
    ∧ ∀ m, m ≠ y → u.txas.get m = s.txas.get m := by
  intro choice u
  obtain ⟨readers, stores, txas⟩ := selectSources_eq_selected y program s
  refine ⟨by simp [u], fun x => ?_, fun m hm => ?_, fun x => ?_, ?_, fun m hm => ?_⟩
  · rw [readers]; simp [selected, choice]
  · rw [readers]; simp [selected, hm]
  · rw [stores]; simp [selected, choice]
  · rw [txas]; simp [selected, choice]
  · rw [txas]; simp [selected, hm]

/-- Settles O26: a live load selects and fixes. -/
theorem loadCompletionSelectsAndFixes : Obligations.LoadCompletionSelectsAndFixes := by
  refine ⟨fun y program s hg => ?live, fun y program s hg => congrArg Host.Outcome.next (loadComplete_of_dead hg),
    fun s h => congrArg Host.Outcome.next (loadComplete_of_no_load h)⟩
  have only := loadComplete_onlyChanges s
  have arb := loadComplete_arb hg
  have counters := fun m hm => selectSources_counters_other (m := m) (y := y) program (freePort s) hm
  rw [loadComplete_of_live hg] at only arb
  have step : exec .loadComplete s = .next (fixFrame y (selectSources y program (freePort s))) :=
    congrArg Host.Outcome.next (loadComplete_of_live hg)
  obtain ⟨lines, reader, otherReaders, store, txa, otherTxas⟩ := selectSources_spec y program (freePort s)
  generalize selectSources y program (freePort s) = u at *
  have fixed := fun m => fixFrame_txas y m u
  have fixedLines := fun m => fixFrame_lines y m u
  have readers : (fixFrame y u).readers = u.readers := by simp
  have stores : (fixFrame y u).stores = u.stores := by simp
  have own := fixed y
  rw [if_pos rfl] at own
  have views : ∀ x, ((fixFrame y u).txas.get y).views.get x
      = (choiceOf s (s.lines.get y).config.checkEnable program x).view (s.stores.get x) := fun x => by
    rw [own, txa]
    simp only [Tab.get_of]
    rfl
  have frame : fixedBy y u = withCheck (s.lines.get y).config.checkEnable (s.lines.get y).txCounter
      (fixSlots (fixFrame y u).stores ((fixFrame y u).txas.get y).views program (s.txas.get y).lastWords) := by
    rw [fixedBy, lines, stores, own, txa]
    rfl
  refine ⟨_, step, only, fun m hm => ?_, fun m hm => by rw [readers, otherReaders m hm]; rfl, fun m hm => ?_,
    fun m hm => ?_, arb, fun x h => ?_, fun x b n hin hc hr hn => ?_, by rw [own, txa], ⟨by rw [← frame, own], ?_, ?_⟩, ?_, ?_⟩
  · rw [fixedLines, if_neg (fun h => hm h.1), lines]; rfl
  · rw [fixed, if_neg hm, otherTxas m hm]; rfl
  · have : (fixFrame y u).counters = u.counters := by simp
    rw [this, counters m hm]; rfl
  · have choice := choiceOf_of_no_frame h
    have same : ∀ c, choiceOf (freePort s) c program x = choiceOf s c program x := fun _ => rfl
    rw [readers, reader, stores, store, views]
    change (choiceOf s (s.lines.get y).config.checkEnable program x).reader = _
      ∧ (choiceOf s (s.lines.get y).config.checkEnable program x).store y (s.stores.get x) = _ ∧ _
    rw [choice]
    split
    · exact ⟨rfl, rfl, rfl⟩
    · split <;> exact ⟨rfl, rfl, rfl⟩
  · have choice := choiceOf_of_frame hin hc hr hn
    have taken : (fixFrame y u).stores.get x = (s.stores.get x).modify b (Buffer.hold y) := by
      rw [stores, store]
      change (choiceOf s (s.lines.get y).config.checkEnable program x).store y (s.stores.get x) = _
      rw [choice]; rfl
    rw [readers, reader, views, taken]
    refine ⟨?_, by rw [choice]; rfl, ?_, fun j hj => ?_, rfl⟩
    · change (choiceOf s (s.lines.get y).config.checkEnable program x).reader = _
      rw [choice]; rfl
    · rw [Store.modify_buffer, if_pos rfl]; rfl
    · rw [Store.modify_buffer, if_neg hj]
  · rw [length_withCheck, length_fixSlots]
  · rw [← frame, own, txa]; rfl
  · rw [own, txa]; rfl
  · rw [fixedLines, lines]
    by_cases hy : y = hostLine
    · rw [if_neg (fun h => h.2 hy), if_pos hy]; rfl
    · rw [if_pos ⟨rfl, hy⟩, if_neg hy]; rfl

/-! ### The pins (R3, R4, R113, R122, R123) -/

theorem drivenBit_of_suspended {s : State} {n : PhysLine} (h : (s.txas.get n.line).suspended = true) (b : Nat) :
    s.drivenBit n b = none := by
  rw [State.drivenBit, h, Bool.not_true, Bool.and_false]; rfl

theorem drivenBit_of_running {s : State} {n : PhysLine} (hr : s.running n.line = true)
    (hs : (s.txas.get n.line).suspended = false) (k : Nat) {j : Nat} (hj : j < 16) : s.drivenBit n (16 * k + j)
      = (s.txas.get n.line).fixed.bind fun f => (f.getD k none).map fun w => w.getLsbD (15 - j) := by
  have hq : (16 * k + j) / Config.slotBits = k := by simp only [Config.slotBits]; omega
  have hm : (16 * k + j) % Config.slotBits = j := by simp only [Config.slotBits]; omega
  rw [State.drivenBit, hr, hs]
  simp only [Bool.not_false, Bool.and_self, if_true, FixedFrame.bitAt, hq, hm]

theorem ltxd_of_running {s : State} {n : PhysLine} (hr : s.running n.line = true) (b : Nat) :
    s.ltxd n b = (s.drivenBit n b).getD false := by
  rw [State.ltxd, hr]; rfl

/-- The bit clock of an internally timed line in its frame and in the gap behind it. -/
theorem bitClockAt_eq {s : State} {n : PhysLine} {g : Fin 2} (hg : (s.lines.get n.line).config.timing = .fg g) (t : Nat) :
    s.bitClockAt n t = if s.running n.line = true ∧ (s.gens.get g).running = true
        ∧ t < (s.lines.get n.line).config.slotCount * 16 * (s.lines.get n.line).config.bitDivider then
      some (t / (s.lines.get n.line).config.bitDivider) else none := by
  simp only [State.bitClockAt, hg, Bool.and_eq_true, decide_eq_true_eq, and_assoc]
  rfl

/-- Settles O30. -/
theorem suspendedLineDrivesNothing : Obligations.SuspendedLineDrivesNothing := by
  intro n s
  refine ⟨fun hs b => ?suspended, fun he flag b => ?disabled, fun hs hr k j hj => ?sends, fun hr b => ?stopped, fun g hg => ?clock⟩
  case suspended =>
    have none := drivenBit_of_suspended hs b
    refine ⟨none, by rw [State.ltxe, none]; rfl, fun he => ?_⟩
    rw [State.ltxd, he, hs, none, Bool.and_self, Bool.or_true]; rfl
  case disabled =>
    have stopped : s.running n.line = false := by simp [State.running, LineUnit.running, he]
    intro t
    have same : t.running n.line = s.running n.line := rfl
    have hnone := drivenBit_of_not_running (same.trans stopped) b
    have snone := drivenBit_of_not_running stopped b
    refine ⟨hnone.trans snone.symm, by rw [State.ltxe, State.ltxe, hnone, snone], ?_⟩
    have enabled : (t.lines.get n.line).enabled = false := he
    rw [State.ltxd, State.ltxd, same, stopped, he, enabled]
    rfl
  case sends =>
    have bit := drivenBit_of_running hr hs k hj
    have pin := ltxd_of_running hr (16 * k + j)
    constructor
    · intro f w hf hw
      rw [hf, Option.bind_some, hw, Option.map_some] at bit
      exact ⟨bit, by rw [State.ltxe, bit]; rfl, by rw [pin, bit]; rfl⟩
    · intro h
      have none : s.drivenBit n (16 * k + j) = none := by
        rw [bit]
        obtain hf | ⟨f, hf, hw⟩ := h
        · rw [hf]; rfl
        · rw [hf, Option.bind_some, hw]; rfl
      exact ⟨none, by rw [State.ltxe, none]; rfl, by rw [pin, none]; rfl⟩
  case stopped =>
    have none := drivenBit_of_not_running hr b
    exact ⟨none, by rw [State.ltxe, none]; rfl⟩
  case clock =>
    intro c gen
    have clock := fun t => bitClockAt_eq hg t
    have idle : ∀ t, s.bitClockAt n t = none → s.bitClockAt n t = none ∧ s.lfs n t = false :=
      fun t h => ⟨h, by rw [State.lfs, h]; rfl⟩
    refine ⟨fun hr hrun t => ⟨fun ht => ?_, fun ht => idle t ?_⟩, fun h t => idle t ?_, fun k => ⟨rfl, fun hfit t ht => ?_⟩⟩
    · have now : s.bitClockAt n t = some (t / c.bitDivider) := by rw [clock, if_pos ⟨hr, hrun, ht⟩]
      have divides : 0 < c.bitDivider := Nat.pos_of_ne_zero fun h => by rw [h, Nat.mul_zero] at ht; omega
      refine ⟨now, ?_⟩
      rw [State.lfs, now, beq_iff_eq, Option.some_inj, Nat.div_eq_zero_iff_lt divides]
    · rw [clock, if_neg (fun h => by exact absurd h.2.2 (Nat.not_lt.mpr ht))]
    · have still : ¬ (s.running n.line = true ∧ gen.running = true) := by
        rcases h with h | h <;> rw [h] <;> simp
      rw [clock, if_neg (fun k => still ⟨k.1, k.2.1⟩)]
    · have late : gen.period.toNat ≤ t := by
        simp only [Generator.frameStartTime, Nat.succ_mul] at ht
        omega
      rw [clock, if_neg (fun h => by exact absurd h.2.2 (Nat.not_lt.mpr (hfit.trans late)))]

end Sys2Proof.Machine
end

section
set_option Elab.async false -- one proof after the other, within the check's limit on threads
/-! A boundary at the host line block (Chapter 8): the settling of obligation O40. -/

namespace Sys2Proof.Machine

/-! ### The hand-over (R48, R134, R135) -/

theorem satInc_counter_of_congr {s t : State} (h : t.counters = s.counters) (n : Line) (k : Fin 8) :
    satInc (t.counter n k) = satInc (s.counter n k) := by rw [counter_congr h]

/-- The records of a placement: an OVERRUN for the first discard of a run. -/
theorem placeInsert_records (f : InsertFrame) {s : State} (hroom : s.evq.records.length < 32) :
    (placeInsert f s).evq.records = s.evq.records
      ++ (if (s.stores.get hostLine).choose = none ∧ (s.stores.get hostLine).overrunRun = false then
        [⟨.overrun, 8, 0, 1, 0, s.stampOf hostLine⟩] else []) := by
  have kept : ∀ g u, (modifyStore hostLine g u).evq = u.evq := fun g u => rfl
  unfold placeInsert
  cases hc : (s.stores.get hostLine).choose with
  | some i => simp
  | none =>
    dsimp only
    rw [kept]
    obtain ⟨run, first⟩ := overrun_evq hostLine s
    cases hr : (s.stores.get hostLine).overrunRun with
    | true => simp [run hr]
    | false =>
      rw [first hr hroom, if_pos ⟨rfl, rfl⟩]
      rfl

theorem handOver_records {s : State} (hroom : s.evq.records.length < 32) : (handOver s).evq.records = s.evq.records
    ++ (if s.host.insertPending.isSome then
        (if (s.stores.get hostLine).choose = none ∧ (s.stores.get hostLine).overrunRun = false then
          [⟨.overrun, 8, 0, 1, 0, s.stampOf hostLine⟩] else [])
      else if s.host.underrunArmed then [⟨.insertUnderrun, 8, 0, 1, 0, s.stampOf hostLine⟩] else []) := by
  cases h : s.host.insertPending with
  | some f =>
    rw [handOver_some h, placeInsert_records f (by exact hroom)]
    rfl
  | none =>
    simp only [handOver, h]
    cases ha : s.host.underrunArmed with
    | true =>
      have sent := sendEvent_records .insertUnderrun hostLine 0 (s := countUp hostLine INSERT_UNDERRUNS s) hroom
      exact sent
    | false => simp [countUp]

/-- Without reporting armed a hand-over sends no INSERT_UNDERRUN (R135). -/
theorem handOver_no_underrun {kinds : EventKind → Bool} {P : State → Prop} (k : KeptByReports kinds P)
    (ho : kinds .overrun = true) {s : State} (ha : s.host.underrunArmed = false) (h : P s) : P (handOver s) := by
  cases hp : s.host.insertPending with
  | some f =>
    rw [handOver_some hp, placeInsert]
    split
    · exact k.same (t := modifyStore hostLine _ (s.withHost _)) h
    · have consumed : P (s.withHost { s.host with insertPending := none, underrunArmed := true }) := k.same h
      exact k.same (k.overrun ho hostLine consumed)
  | none =>
    simp only [handOver, hp, ha]
    exact k.same (t := countUp hostLine INSERT_UNDERRUNS s) h

/-! ### The capture (R127, R138, R139) -/

theorem deliverCapture_txas (s : State) (m : Line) : (deliverCapture s).txas.get m = if m = hostLine then
    { s.txas.get hostLine with fixed := none, spanSuspended := (s.txas.get hostLine).suspended } else s.txas.get m := by
  unfold deliverCapture; dsimp only; split <;> simp [Tab.get_put]

/-- The host line block after a delivery. -/
theorem deliverCapture_host_eq (s : State) : (deliverCapture s).host = match (s.txas.get hostLine).fixed with
    | some f => if s.host.captures.length < 8 then
        { s.host with captures := s.host.captures ++ [captureOf f (s.txas.get hostLine).spanSuspended], overflowRun := false }
      else { s.host with overflowRun := true }
    | none => s.host := by
  obtain ⟨u, host, -, -, -, -, deliver⟩ := deliverCapture_cases s
  rw [deliver]
  cases (s.txas.get hostLine).fixed with
  | some f =>
    dsimp only
    rw [appendCapture_host, host]
  | none => exact host

/-- The records of a delivery: a CAPTURE_OVERFLOW for the first drop of a run. -/
theorem deliverCapture_records {s : State} (hroom : s.evq.records.length < 32) : (deliverCapture s).evq.records = s.evq.records
    ++ (if (s.txas.get hostLine).fixed.isSome ∧ 8 ≤ s.host.captures.length ∧ s.host.overflowRun = false then
      [⟨.captureOverflow, 8, 0, 1, 0, s.stampOf hostLine⟩] else []) := by
  obtain ⟨u, host, -, stores, evq, -, deliver⟩ := deliverCapture_cases s
  rw [deliver]
  cases hf : (s.txas.get hostLine).fixed with
  | none => simp [evq]
  | some f =>
    dsimp only
    rw [appendCapture, host]
    by_cases hlen : s.host.captures.length < Config.captureCapacity
    · have hlen' : ¬ 8 ≤ s.host.captures.length := Nat.not_le.mpr hlen
      rw [if_pos hlen, if_neg (fun h => hlen' h.2.1)]
      simp [evq]
    · have hlen' : 8 ≤ s.host.captures.length := Nat.not_lt.mp hlen
      rw [if_neg hlen]
      have sent := sendEvent_records .captureOverflow hostLine 0 (s := countUp hostLine CAPTURE_OVERFLOWS u)
        (by simpa [evq] using hroom)
      have stamp : (countUp hostLine CAPTURE_OVERFLOWS u).stampOf hostLine = s.stampOf hostLine := by
        rw [← show u.stampOf hostLine = s.stampOf hostLine by rw [State.stampOf, stores]; rfl]; rfl
      cases hr : s.host.overflowRun with
      | true => simp [evq]
      | false =>
        rw [if_pos ⟨rfl, hlen', rfl⟩, ← stamp, ← evq]
        exact sent

/-! ### The boundary (R128) -/

/-- A record of the list after an append. -/
theorem appendRecord_mem {r q : EventRecord} {s : State} (h : q ∈ (appendRecord r s).evq.records) :
    q ∈ s.evq.records ∨ q = r := by
  unfold appendRecord at h
  split at h
  · exact (List.mem_append.mp h).imp_right List.mem_singleton.mp
  · exact .inl h

theorem handOver_txas (s : State) : (handOver s).txas = s.txas := by simp

/-- The store of the host line after a pending frame has been handed over. -/
theorem handOver_placed {s : State} {f : InsertFrame} (h : s.host.insertPending = some f) :
    ((handOver s).stores.get hostLine).frameCount = (s.stores.get hostLine).frameCount + 1
    ∧ (∀ i, (s.stores.get hostLine).choose = some i → ((handOver s).stores.get hostLine).buffers.get i
      = ((s.stores.get hostLine).buffers.get i).take ((s.stores.get hostLine).frameCount + 1) false f.words)
    ∧ ((s.stores.get hostLine).choose = none →
      ((handOver s).stores.get hostLine).buffers = (s.stores.get hostLine).buffers) := by
  rw [handOver_stores, h]
  dsimp only
  rw [if_pos rfl]
  cases hc : (s.stores.get hostLine).choose with
  | some i =>
    refine ⟨rfl, fun j hj => ?_, fun hn => by cases hn⟩
    cases hj
    exact (Store.modify_buffer _ i i fun b => b.take ((s.stores.get hostLine).frameCount + 1) false f.words).trans (if_pos rfl)
  | none => exact ⟨rfl, fun j hj => (by cases hj), fun _ => rfl⟩

/-- Every counter after a boundary at the host line block. -/
theorem hostBoundary_counter_other (s : State) {m : Line} (hm : m ≠ hostLine) (j : Fin 8) :
    (hostBoundary s).counter m j = s.counter m j := by
  rw [hostBoundary, deliverCapture_counter, if_neg (fun h => hm h.2.2.1), handOver_counter]
  split <;> rw [if_neg]
  · exact fun h => hm h.2.1
  · exact fun h => hm h.1

/-- Settles O40: the hand-over, and then the capture. -/
theorem hostBoundaryHandsOverAndCaptures : Obligations.HostBoundaryHandsOverAndCaptures := by
  intro s t
  have stores : t.stores = (handOver s).stores := by simp [t, hostBoundary]
  have txas : ∀ m, t.txas.get m = if m = hostLine then
      { s.txas.get hostLine with fixed := none, spanSuspended := (s.txas.get hostLine).suspended } else s.txas.get m := fun m => by
    rw [show t = deliverCapture (handOver s) from rfl, deliverCapture_txas, handOver_txas]
  have handed := handOver_host s
  have host : t.host = _ := deliverCapture_host_eq (handOver s)
  rw [handOver_txas, handed] at host
  have count : ∀ j, t.counter hostLine j = if (s.txas.get hostLine).fixed.isSome ∧ 8 ≤ s.host.captures.length
      ∧ j = CAPTURE_OVERFLOWS then satInc ((handOver s).counter hostLine j) else (handOver s).counter hostLine j := fun j => by
    rw [show t = deliverCapture (handOver s) from rfl, deliverCapture_counter, handOver_txas, handed]
    simp
  refine ⟨?only, fun m hm => ?_, fun m hm => ?_, fun m hm => by rw [txas, if_neg hm], ?_, by rw [txas, if_pos rfl],
    fun f hf => ?pending, fun hn => ?underrun, fun hroom => ?records, fun ha => ?unarmed, fun hx => ?noFrame,
    fun f hx hlen => ?captured, fun f hx hlen => ?dropped⟩
  · intro f hf; cases f <;> simp [Field.same, t] at hf ⊢
  · rw [stores, handOver_stores]
    split
    · rw [if_neg hm]
    · rfl
  · exact Tab.ext_get fun j => hostBoundary_counter_other s hm j
  · rw [host]
    split
    · split <;> rfl
    · rfl
  case pending =>
    obtain ⟨frameCount, placed, discarded⟩ := handOver_placed hf
    refine ⟨by rw [stores, frameCount], ?_, ?_, fun i hi => ?_, fun hn => ⟨by rw [stores, discarded hn], ?_⟩⟩
    · rw [host, hf]
      split
      · split <;> rfl
      · rfl
    · rw [count, if_neg (fun h => absurd h.2.2 (by decide)), handOver_counter, hf]
      exact if_neg (fun h => absurd h.2.2 (by decide))
    · rw [stores, placed i hi]
      exact ⟨rfl, rfl, rfl, fun k hk => getD_overwrite _ hk⟩
    · rw [count, if_neg (fun h => absurd h.2.2 (by decide)), handOver_counter, hf]
      exact if_pos ⟨hn, rfl, rfl⟩
  case underrun =>
    refine ⟨?_, ?_, ?_⟩
    · rw [stores]
      refine Tab.ext_get fun m => ?_
      rw [handOver_stores, hn]
    · rw [host, hn]
      split
      · split <;> rfl
      · rfl
    · rw [count, if_neg (fun h => absurd h.2.2 (by decide)), handOver_counter, hn]
      exact if_pos ⟨rfl, rfl⟩
  case records =>
    have first := handOver_records (s := s) (by omega)
    have few : ((if s.host.insertPending.isSome then
        (if (s.stores.get hostLine).choose = none ∧ (s.stores.get hostLine).overrunRun = false then
          [⟨.overrun, 8, 0, 1, 0, s.stampOf hostLine⟩] else [])
      else if s.host.underrunArmed then [⟨.insertUnderrun, 8, 0, 1, 0, s.stampOf hostLine⟩] else [] : List EventRecord)).length
        ≤ 1 := by
      split
      · split <;> simp
      · split <;> simp
    have second := deliverCapture_records (s := handOver s) (by rw [first, List.length_append]; omega)
    rw [handOver_txas, handed, first] at second
    have stamp : t.stampOf hostLine = (handOver s).stampOf hostLine := by rw [State.stampOf, stores]; rfl
    rw [stamp]
    exact second
  case unarmed =>
    have kept : KeptByReports (fun k => k != .insertUnderrun)
        (fun u => ∀ r ∈ u.evq.records, r.kind = .insertUnderrun → r ∈ s.evq.records) := by
      refine ⟨fun u v h hu => ?_, fun r u hr hu q hq hk => ?_⟩
      · rw [show v.evq = u.evq from h .evq (by simp)]
        exact hu
      · obtain hq | hq := appendRecord_mem hq
        · exact hu q hq hk
        · rw [hq] at hk
          rw [hk] at hr
          cases hr
    have handed := handOver_no_underrun kept rfl ha (fun r hr _ => hr)
    change ∀ r ∈ (deliverCapture (handOver s)).evq.records, _
    unfold deliverCapture
    dsimp only
    split
    · exact kept.appendCapture rfl _ (kept.same (t := (handOver s).withTxas _) handed)
    · exact handed
  case noFrame =>
    rw [host, hx]
    exact ⟨rfl, rfl⟩
  case captured =>
    rw [host, hx]
    dsimp only
    rw [if_pos hlen]
    exact ⟨rfl, rfl⟩
  case dropped =>
    rw [host, hx]
    dsimp only
    rw [if_neg (Nat.not_lt.mpr hlen)]
    refine ⟨rfl, rfl, ?_⟩
    rw [count, if_pos ⟨by rw [hx]; rfl, hlen, rfl⟩, handOver_counter]
    split
    · rw [if_neg (fun h => absurd h.2.2 (by decide))]
    · rw [if_neg (fun h => absurd h.2 (by decide))]

end Sys2Proof.Machine
end

section
set_option Elab.async false -- one proof after the other, within the check's limit on threads
/-! Stores, loads, readers and holder sets in agreement, store by store: what each operation of a store keeps of its law and of
the agreement with the readers (R36 to R50, R56 to R62). -/

namespace Sys2Proof.Machine

/-! ### One buffer -/

theorem LineSet.get_empty (y : Line) : LineSet.empty.get y = false := by simp [LineSet.empty]

/-- A buffer that becomes FREE or FILLING meets its law. -/
theorem BufferLaw.become (b : Buffer) {st : BufferState} (h : st = .free ∨ st = .filling) : BufferLaw (b.become st) := by
  refine ⟨fun _ => ⟨rfl, rfl, LineSet.get_empty⟩, fun hs => ?_, fun hs => ?_⟩ <;>
    obtain rfl | rfl := h <;> simp [Buffer.become] at hs

/-- A buffer that takes a frame meets its law. -/
theorem BufferLaw.take (b : Buffer) (n : BitVec 32) (d : Bool) (f : List Word) : BufferLaw (b.take n d f) :=
  ⟨by simp [Buffer.take], fun _ => ⟨n, rfl⟩, by simp [Buffer.take]⟩

/-- A READY buffer that a line holds meets its law. -/
theorem BufferLaw.hold {b : Buffer} (h : BufferLaw b) (hr : b.state = .ready) (y : Line) : BufferLaw (b.hold y) := by
  obtain ⟨-, hnumber, -⟩ := h
  exact ⟨by simp [Buffer.hold, hr], fun _ => hnumber (.inl hr), by simp [Buffer.hold, hr]⟩

/-- A buffer after a release: one whose last holder leaves is FREE, and any other loses that holder alone. -/
theorem Buffer.release_cases (y : Line) (b : Buffer) :
    (b.release y = b.become .free ∧ b.state = .retired ∧ b.holders.get y = true ∧ ∀ z, z ≠ y → b.holders.get z = false)
      ∨ ((b.state = .retired → b.holders.get y = true → ∃ z, z ≠ y ∧ b.holders.get z = true)
        ∧ b.release y = { b with holders := b.holders.erase y }) := by
  have erased : ∀ z, (b.holders.erase y).get z = if z = y then false else b.holders.get z := fun z => by
    rw [LineSet.erase, Tab.get_put]
  unfold Buffer.release
  by_cases hy : b.holders.get y = true
  · rw [if_pos hy]
    split
    · next h =>
      refine .inl ⟨rfl, h.1, hy, fun z hz => ?_⟩
      have := (isEmpty_iff _).mp h.2 z
      rwa [erased, if_neg hz] at this
    · next h =>
      refine .inr ⟨fun hret _ => ?_, rfl⟩
      by_contra hno
      refine h ⟨hret, (isEmpty_iff _).mpr fun z => ?_⟩
      rw [erased]; split
      · rfl
      · next hz => exact Bool.eq_false_iff.mpr fun ht => hno ⟨z, hz, ht⟩
  · rw [if_neg hy]
    have same : b.holders.erase y = b.holders := Tab.ext_get fun z => by
      rw [erased]; split
      · next h => subst h; exact (Bool.eq_false_iff.mpr hy).symm
      · rfl
    exact .inr ⟨fun _ h => absurd h hy, by rw [same]⟩

theorem Buffer.release_holders (y z : Line) (b : Buffer) :
    (b.release y).holders.get z = if z = y then false else b.holders.get z := by
  obtain ⟨h, -, -, hno⟩ | ⟨-, h⟩ := b.release_cases y <;> rw [h]
  · split
    · exact LineSet.get_empty z
    · next hz => rw [hno z hz]; exact LineSet.get_empty z
  · exact Tab.get_put ..

theorem BufferLaw.release {b : Buffer} (h : BufferLaw b) (y : Line) : BufferLaw (b.release y) := by
  obtain ⟨hr, -, -⟩ | ⟨hrest, hr⟩ := b.release_cases y
  · rw [hr]; exact .become b (.inl rfl)
  · obtain ⟨hfree, hnumber, hretired⟩ := h
    have holders := fun z => b.release_holders y z
    rw [hr] at holders ⊢
    refine ⟨fun hs => ?_, hnumber, fun hs => ?_⟩
    · obtain ⟨hn, hd, hno⟩ := hfree hs
      exact ⟨hn, hd, fun z => by rw [holders, hno z, ite_self]⟩
    · obtain ⟨z, hz⟩ := hretired hs
      by_cases hzy : z = y
      · obtain ⟨w, hw, hold⟩ := hrest hs (hzy ▸ hz)
        exact ⟨w, by rw [holders, if_neg hw]; exact hold⟩
      · exact ⟨z, by rw [holders, if_neg hzy]; exact hz⟩

/-- An emptied buffer keeps its holders and the number that they know. -/
theorem BufferLaw.emptied {b : Buffer} (h : BufferLaw b) : BufferLaw b.emptied ∧ b.emptied.holders = b.holders
    ∧ ∀ y, b.holders.get y = true → b.emptied.number = b.number := by
  obtain ⟨hfree, hnumber, -⟩ := id h
  have none : (∀ y, b.holders.get y = false) → BufferLaw (b.become .free) ∧ (b.become .free).holders = b.holders
      ∧ ∀ y, b.holders.get y = true → (b.become .free).number = b.number := fun hno =>
    ⟨.become b (.inl rfl), Tab.ext_get fun z => by rw [hno z]; exact LineSet.get_empty z,
      fun y hy => by rw [hno y] at hy; cases hy⟩
  unfold Buffer.emptied
  cases hs : b.state with
  | free => exact ⟨h, rfl, fun _ _ => rfl⟩
  | filling => exact none (hfree (.inr hs)).2.2
  | ready =>
    dsimp only; split
    · next he => exact none ((isEmpty_iff _).mp he)
    · next he =>
      refine ⟨⟨by simp, fun _ => hnumber (.inl hs), fun _ => ?_⟩, rfl, fun _ _ => rfl⟩
      by_contra hno
      exact he ((isEmpty_iff _).mpr fun z => Bool.eq_false_iff.mpr fun hz => hno ⟨z, hz⟩)
  | retired => exact ⟨h, rfl, fun _ _ => rfl⟩

/-! ### One store -/

/-- The law of one store; `live`: its line is a physical line that runs. -/
structure Store.Lawful (live : Prop) (st : Store) : Prop where
  buffer : ∀ i, BufferLaw (st.buffers.get i)
  oneFilling : ∀ i j, (st.buffers.get i).state = .filling → (st.buffers.get j).state = .filling → i = j
  filling : ∀ i, (st.buffers.get i).state = .filling → live
  discarding : st.discarding = true → live

/-- Reader `r` of line `y` agrees with the holder sets of its store. -/
structure Reader.Agrees (y : Line) (st : Store) (r : Reader) : Prop where
  holds : ∀ i, (st.buffers.get i).holders.get y = true ↔ r.held = some i
  number : ∀ i, r.held = some i → (st.buffers.get i).number = r.cursor

/-- Store `b` keeps what store `a` has of holders and of the numbers of held buffers. -/
def Store.SameHolds (a b : Store) : Prop := ∀ i, (b.buffers.get i).holders = (a.buffers.get i).holders
  ∧ ∀ y, (a.buffers.get i).holders.get y = true → (b.buffers.get i).number = (a.buffers.get i).number

theorem Reader.Agrees.same {y : Line} {a b : Store} {r : Reader} (h : r.Agrees y a) (k : a.SameHolds b) : r.Agrees y b where
  holds i := by rw [(k i).1]; exact h.holds i
  number i hi := by rw [(k i).2 y ((h.holds i).mpr hi)]; exact h.number i hi

namespace Store

theorem SameHolds.refl (a : Store) : a.SameHolds a := fun _ => ⟨rfl, fun _ _ => rfl⟩

/-- The store receives nothing. -/
def Idle (st : Store) : Prop := (∀ i, (st.buffers.get i).state ≠ .filling) ∧ st.discarding = false

theorem idle_of_quiet {fc : BitVec 32} {st : Store} (h : QuietStore fc st) : st.Idle :=
  ⟨fun i hf => (by obtain hs | hs := h.1 i <;> rw [hf] at hs <;> cases hs), h.2.1⟩

theorem filling_eq_none (st : Store) : st.filling = none ↔ ∀ i, (st.buffers.get i).state ≠ .filling := by
  rw [Store.filling, find_buffer_eq_none]
  exact forall_congr' fun i => beq_eq_false_iff_ne

theorem idle_of_not_receiving {st : Store} (h : st.receiving = false) : st.Idle := by
  rw [Store.receiving, Bool.or_eq_false_iff, Option.isSome_eq_false_iff, Option.isNone_iff_eq_none] at h
  exact ⟨(st.filling_eq_none).mp h.1, h.2⟩

theorem state_of_filling {st : Store} {i : Fin 4} (h : st.filling = some i) : (st.buffers.get i).state = .filling := by
  rw [Store.filling, find_buffer] at h
  exact beq_iff_eq.mp h.1

namespace Lawful

variable {live : Prop} {st : Store} (h : st.Lawful live)
include h

theorem of_idle (hi : st.Idle) {live' : Prop} : st.Lawful live' where
  buffer := h.buffer
  oneFilling := h.oneFilling
  filling i hf := absurd hf (hi.1 i)
  discarding hd := by rw [hi.2] at hd; cases hd

theorem mono {live' : Prop} (k : live → live') : st.Lawful live' where
  buffer := h.buffer
  oneFilling := h.oneFilling
  filling i hf := k (h.filling i hf)
  discarding hd := k (h.discarding hd)

theorem sameFrames {st' : Store} (k : st.SameFrames st') : st'.Lawful live ∧ st.SameHolds st' := by
  refine ⟨⟨fun i => ?_, fun i j => ?_, fun i => ?_, ?_⟩, fun i => ⟨k.holders i, fun _ _ => k.number i⟩⟩
  · have := h.buffer i
    simpa only [BufferLaw, k.state, k.number, k.damaged, k.holders] using this
  · rw [k.state, k.state]; exact h.oneFilling i j
  · rw [k.state]; exact h.filling i
  · rw [k.discarding]; exact h.discarding

theorem emptied : st.emptied.Lawful live ∧ st.SameHolds st.emptied := by
  have quiet := idle_of_quiet st.emptied_quiet
  refine ⟨⟨fun i => ?_, fun i _ hi => absurd hi (quiet.1 i), fun i hi => absurd hi (quiet.1 i), fun hd => ?_⟩, fun i => ?_⟩
  · rw [emptied_buffer]; exact (h.buffer i).emptied.1
  · rw [quiet.2] at hd; cases hd
  · rw [emptied_buffer]; exact (h.buffer i).emptied.2

theorem release (y : Line) : (st.release y).Lawful live := by
  have state : ∀ i, ((st.release y).buffers.get i).state = .filling → (st.buffers.get i).state = .filling := fun i hi => by
    rw [release_buffer] at hi
    obtain ⟨hr, -, -⟩ | ⟨-, hr⟩ := (st.buffers.get i).release_cases y <;> rw [hr] at hi
    · cases hi
    · exact hi
  exact ⟨fun i => by rw [release_buffer]; exact (h.buffer i).release y,
    fun i j hi hj => h.oneFilling i j (state i hi) (state j hj), fun i hi => h.filling i (state i hi), h.discarding⟩

/-- One buffer that nobody holds is replaced by one that nobody holds; it is FILLING only where the line receives and no
other buffer is. -/
theorem replace {st' : Store} {i : Fin 4} {b : Buffer} (hb : BufferLaw b) (hu : ∀ y, (st.buffers.get i).holders.get y = false)
    (hu' : ∀ y, b.holders.get y = false)
    (hf : b.state = .filling → live ∧ ∀ j, j ≠ i → (st.buffers.get j).state ≠ .filling)
    (ht : ∀ j, st'.buffers.get j = if j = i then b else st.buffers.get j)
    (hd : st'.discarding = true → live) : st'.Lawful live ∧ st.SameHolds st' := by
  refine ⟨⟨fun j => ?_, fun j k => ?_, fun j => ?_, hd⟩, fun j => ?_⟩
  · rw [ht]; split
    · exact hb
    · exact h.buffer j
  · rw [ht, ht]
    by_cases hj : j = i <;> by_cases hk : k = i <;> simp only [hj, hk, if_true, if_false]
    · exact fun _ _ => trivial
    · exact fun hbs hks => absurd hks ((hf hbs).2 k hk)
    · exact fun hjs hbs => absurd hjs ((hf hbs).2 j hj)
    · exact h.oneFilling j k
  · rw [ht]; split
    · exact fun hs => (hf hs).1
    · exact h.filling j
  · rw [ht]; split
    · next hj =>
      subst hj
      refine ⟨Tab.ext_get fun y => by rw [hu, hu'], fun y hy => ?_⟩
      rw [hu] at hy; cases hy
    · exact ⟨rfl, fun _ _ => rfl⟩

/-- A completion ends the reception into a buffer. -/
theorem complete (d : Bool) (f : List Word) : (st.complete d f).Lawful live
    ∧ (∀ i, ((st.complete d f).buffers.get i).state ≠ .filling) ∧ st.SameHolds (st.complete d f) := by
  cases hi : st.filling with
  | some i =>
    have filling := state_of_filling hi
    have buffer := st.complete_buffer hi d f
    have kept := h.replace (.take _ _ d f) ((h.buffer i).1 (.inr filling)).2.2 (fun _ => LineSet.get_empty _)
      (fun hs => (by cases hs)) buffer (fun _ => h.filling i filling)
    refine ⟨kept.1, fun j hj => ?_, kept.2⟩
    rw [buffer] at hj; split at hj
    · cases hj
    · next hne => exact hne (h.oneFilling j i hj filling)
  | none =>
    have idle := (st.filling_eq_none).mp hi
    rw [Store.complete, hi]; dsimp only
    split
    · exact ⟨⟨h.buffer, h.oneFilling, h.filling, fun hd => (by cases hd)⟩, idle, .refl st⟩
    · exact ⟨h, idle, .refl st⟩

/-- A buffer that is chosen for a new frame has no holder (R45). -/
theorem unheld_of_choose {i : Fin 4} (hi : st.choose = some i) (y : Line) : (st.buffers.get i).holders.get y = false := by
  obtain ⟨hfree, -⟩ | ⟨-, f, hf, -⟩ := Store.choose_eq_some hi
  · exact ((h.buffer i).1 (.inl hfree)).2.2 y
  · obtain ⟨-, -, hu, -⟩ := (st.mem_reusable i f).mp hf
    exact hu y

end Lawful

end Store

end Sys2Proof.Machine
end

section
set_option Elab.async false -- one proof after the other, within the check's limit on threads
/-! Stores, loads, readers and holder sets stay in agreement (R56 to R71, R85, R86): the settling of obligation O53. The law is
stated over a set of lines taken to run, so that it holds also between the parts of one operation. -/

namespace Sys2Proof.Machine

/-! ### The arbiter's loads -/

/-- At most one outstanding load of a line. -/
structure Arbiter.LoadsOnce (a : Arbiter) : Prop where
  nodup : a.loadQueue.Nodup
  granted : ∀ y p, a.grant = some (.load y p true) → y ∉ a.loadQueue

theorem killLoad_eq_live (n y : Line) (p : List MapEntry) (g : Option Grant) :
    g.map (Grant.killLoad n) = some (.load y p true) ↔ g = some (.load y p true) ∧ y ≠ n := by
  cases g with
  | none => simp
  | some g => cases g with
    | load m q live =>
      simp only [Option.map_some, Grant.killLoad, Option.some_inj, Grant.load.injEq, Bool.and_eq_true, bne_iff_ne]
      constructor
      · rintro ⟨rfl, rfl, hl, hn⟩; exact ⟨⟨rfl, rfl, hl⟩, hn⟩
      · rintro ⟨⟨rfl, rfl, hl⟩, hn⟩; exact ⟨rfl, rfl, hl, hn⟩
    | hostRead e => simp [Grant.killLoad]
    | hostWrite e => simp [Grant.killLoad]
    | copyStep i live => simp [Grant.killLoad]

theorem Arbiter.LoadsOnce.withdrawn {a : Arbiter} (h : a.LoadsOnce) (n : Line) : (a.withdrawn n).LoadsOnce where
  nodup := h.nodup.filter _
  granted y p hg hm := h.granted y p ((killLoad_eq_live n y p _).mp hg).1 (List.mem_of_mem_filter hm)

theorem loadOutstanding_withdrawn {s t : State} {n : Line} (h : t.arb = s.arb.withdrawn n) (y : Line) :
    t.loadOutstanding y ↔ s.loadOutstanding y ∧ y ≠ n := by
  simp only [State.loadOutstanding, h, Arbiter.withdrawn, List.mem_filter, bne_iff_ne, killLoad_eq_live, exists_and_right,
    ← or_and_right]

theorem loadOutstanding_congr {s t : State} (hq : t.arb.loadQueue = s.arb.loadQueue) (hg : t.arb.grant = s.arb.grant) (y : Line) :
    t.loadOutstanding y ↔ s.loadOutstanding y := by simp only [State.loadOutstanding, hq, hg]

/-! ### The law over a set of running lines -/

/-- The laws of stores, loads and holds, where the lines of `run` are those that run. -/
structure HoldsBy (run : Line → Bool) (s : State) : Prop where
  store : ∀ x, (s.stores.get x).Lawful (x ≠ hostLine ∧ run x = true)
  reader : ∀ y x, ((s.readers.get y).get x).Agrees y (s.stores.get x)
  once : s.arb.LoadsOnce
  outstanding : ∀ y, s.loadOutstanding y → run y = true
  empty : ∀ y, run y = false ∨ s.loadOutstanding y → ∀ x, ((s.readers.get y).get x).held = none

theorem holdingLaw_iff (s : State) : HoldingLaw s ↔ ReceiverLaw s ∧ HoldsBy s.running s := by
  constructor
  · rintro ⟨hr, hs, ⟨hnodup, hrun, hgrant⟩, hhold, hnumber, hempty⟩
    exact ⟨hr, fun x => ⟨(hs x).1, (hs x).2.1, (hs x).2.2.1, (hs x).2.2.2⟩,
      fun y x => ⟨hhold y x, hnumber y x⟩, ⟨hnodup, hgrant⟩, hrun, hempty⟩
  · rintro ⟨hr, h⟩
    exact ⟨hr, fun x => ⟨(h.store x).buffer, (h.store x).oneFilling, (h.store x).filling, (h.store x).discarding⟩,
      ⟨h.once.nodup, h.outstanding, h.once.granted⟩, fun y x => (h.reader y x).holds, fun y x => (h.reader y x).number, h.empty⟩

/-- The line takes part in nothing: its store receives nothing, it has no load outstanding and holds nothing. -/
structure State.Quiet (n : Line) (s : State) : Prop where
  store : (s.stores.get n).Idle
  load : ¬ s.loadOutstanding n
  held : ∀ x, ((s.readers.get n).get x).held = none

namespace HoldsBy

variable {run : Line → Bool} {s t : State}

/-- Lines that begin to run, and lines that take part in nothing and stop. -/
theorem withRun {run' : Line → Bool} (h : HoldsBy run s) (k : ∀ m, run m = true → run' m = true ∨ s.Quiet m) :
    HoldsBy run' s where
  store x := by
    by_cases hx : run x = true
    · obtain hr | hq := k x hx
      · exact (h.store x).mono fun hl => ⟨hl.1, hr⟩
      · exact (h.store x).of_idle hq.store
    · exact (h.store x).mono fun hl => absurd hl.2 hx
  reader := h.reader
  once := h.once
  outstanding y hy := by
    obtain hr | hq := k y (h.outstanding y hy)
    · exact hr
    · exact absurd hy hq.load
  empty y hy := by
    by_cases hr : run y = true
    · obtain hr' | hq := k y hr
      · exact h.empty y (.inr (hy.resolve_left (by simp [hr'])))
      · exact hq.held
    · exact h.empty y (.inl (Bool.eq_false_iff.mpr hr))

/-- The law rests on the stores, the readers and the loads of the arbiter. -/
theorem congr (h : HoldsBy run s) (hs : t.stores = s.stores) (hr : t.readers = s.readers)
    (hq : t.arb.loadQueue = s.arb.loadQueue) (hg : t.arb.grant = s.arb.grant) : HoldsBy run t where
  store x := by rw [hs]; exact h.store x
  reader y x := by rw [hs, hr]; exact h.reader y x
  once := ⟨by rw [hq]; exact h.once.nodup, by rw [hq, hg]; exact h.once.granted⟩
  outstanding y hy := h.outstanding y ((loadOutstanding_congr hq hg y).mp hy)
  empty y hy := by rw [hr]; exact h.empty y (hy.imp_right (loadOutstanding_congr hq hg y).mp)

/-- The law where only parts change on which it does not rest. -/
theorem frame (h : HoldsBy run s) (ht : t.stores = s.stores ∧ t.readers = s.readers ∧ t.arb = s.arb) : HoldsBy run t :=
  h.congr ht.1 ht.2.1 (by rw [ht.2.2]) (by rw [ht.2.2])

/-- Stores change that keep their holders. -/
theorem withStores (h : HoldsBy run s) (hs : ∀ x, (t.stores.get x).Lawful (x ≠ hostLine ∧ run x = true)
    ∧ (s.stores.get x).SameHolds (t.stores.get x)) (hr : t.readers = s.readers) (ha : t.arb = s.arb) : HoldsBy run t where
  store x := (hs x).1
  reader y x := by rw [hr]; exact (h.reader y x).same (hs x).2
  once := by rw [ha]; exact h.once
  outstanding y hy := h.outstanding y ((loadOutstanding_congr (by rw [ha]) (by rw [ha]) y).mp hy)
  empty y hy := by
    rw [hr]; exact h.empty y (hy.imp_right (loadOutstanding_congr (by rw [ha]) (by rw [ha]) y).mp)

/-- One store changes that keeps its holders. -/
theorem withStore (h : HoldsBy run s) {n : Line} {st : Store} (hl : st.Lawful (n ≠ hostLine ∧ run n = true))
    (hk : (s.stores.get n).SameHolds st) (hs : ∀ x, t.stores.get x = if x = n then st else s.stores.get x)
    (hr : t.readers = s.readers) (ha : t.arb = s.arb) : HoldsBy run t :=
  h.withStores (fun x => by
    rw [hs]; split
    · next hx => subst hx; exact ⟨hl, hk⟩
    · exact ⟨h.store x, .refl _⟩) hr ha

/-! ### Boundaries and stops of a line -/

/-- Line `n` releases what it holds in every store, and its load claims are those of after. -/
theorem released (h : HoldsBy run s) {n : Line} (hs : ∀ x, t.stores.get x = (s.stores.get x).release n)
    (hr : ∀ m, m ≠ n → t.readers.get m = s.readers.get m) (hn : ∀ x, ((t.readers.get n).get x).held = none)
    (ho : t.arb.LoadsOnce) (hl : ∀ m, t.loadOutstanding m → s.loadOutstanding m ∨ (m = n ∧ run n = true)) : HoldsBy run t where
  store x := by rw [hs]; exact (h.store x).release n
  once := ho
  reader y x := by
    have holders := fun i => (s.stores.get x).release_buffer n i
    rw [hs]
    by_cases hy : y = n
    · subst hy
      refine ⟨fun i => ?_, fun i hi => (by rw [hn] at hi; cases hi)⟩
      rw [holders, Buffer.release_holders, if_pos rfl, hn]
      constructor <;> intro hc <;> cases hc
    · rw [hr y hy]
      refine ⟨fun i => ?_, fun i hi => ?_⟩
      · rw [holders, Buffer.release_holders, if_neg hy]; exact (h.reader y x).holds i
      · rw [holders]
        obtain ⟨-, -, -, hno⟩ | ⟨-, hsame⟩ := ((s.stores.get x).buffers.get i).release_cases n
        · have := ((h.reader y x).holds i).mpr hi
          rw [hno y hy] at this; cases this
        · rw [hsame]; exact (h.reader y x).number i hi
  outstanding m hm := by
    obtain ho | ⟨rfl, hrun⟩ := hl m hm
    · exact h.outstanding m ho
    · exact hrun
  empty y hy := by
    by_cases hyn : y = n
    · subst hyn; exact hn
    · rw [hr y hyn]
      exact h.empty y (hy.imp_right fun ho => (hl y ho).resolve_right fun hc => hyn hc.1)

theorem transmitBoundary (h : HoldsBy run s) {n : Line} (hn : run n = true) : HoldsBy run (transmitBoundary n s) := by
  have arb := transmitBoundary_arb n s
  refine h.released (fun x => transmitBoundary_stores n x s) (fun m hm => by rw [transmitBoundary_readers, if_neg hm]) (fun x => ?_)
    ?_ (fun m hm => ?_)
  · rw [transmitBoundary_readers, if_pos rfl, Tab.get_of]; exact Reader.released_held _ _
  · obtain ⟨hnodup, hgrant⟩ := h.once.withdrawn n
    rw [arb]
    refine ⟨?_, fun y p hg => ?_⟩
    · refine List.nodup_append.mpr ⟨hnodup, by simp, fun a ha b hb => ?_⟩
      have : a ≠ n := by simpa using (List.mem_filter.mp ha).2
      rw [List.mem_singleton.mp hb]; exact this
    · have hy := ((killLoad_eq_live n y p _).mp hg).2
      intro hm
      obtain hm | hm := List.mem_append.mp hm
      · exact hgrant y p hg hm
      · exact hy (List.mem_singleton.mp hm)
  · simp only [State.loadOutstanding, arb, Arbiter.withdrawn, List.mem_append, List.mem_filter, killLoad_eq_live, List.mem_singleton] at hm ⊢
    obtain (⟨hq, -⟩ | rfl) | ⟨p, hp, -⟩ := hm
    · exact .inl (.inl hq)
    · exact .inr ⟨rfl, hn⟩
    · exact .inl (.inr ⟨p, hp⟩)

theorem transmitStop (h : HoldsBy run s) (n : Line) : HoldsBy run (transmitStop n s) := by
  have arb := transmitStop_arb n s
  refine h.released (fun x => transmitStop_stores n x s) (fun m hm => by rw [transmitStop_readers, if_neg hm]) (fun x => ?_)
    (by rw [arb]; exact h.once.withdrawn n) fun m hm => .inl ((loadOutstanding_withdrawn arb m).mp hm).1
  rw [transmitStop_readers, if_pos rfl]; simp [Reader.reset]

theorem receiveStop (h : HoldsBy run s) (n : Line) : HoldsBy run (receiveStop n s) :=
  h.withStore (h.store n).emptied.1 (h.store n).emptied.2 (fun x => receiveStop_stores n x s) (by simp) (by simp)

theorem stopLine (h : HoldsBy run s) (n : Line) : HoldsBy run (stopLine n s) := (h.receiveStop n).transmitStop n

theorem enterLost (h : HoldsBy run s) (n : Line) (tx : Bool) : HoldsBy run (enterLost n tx s) := by
  have entered : HoldsBy run (enterReceiver n .lost (countUp n SYNC_LOSSES s)) := h.frame (by simp)
  unfold Machine.enterLost; dsimp only
  generalize enterReceiver n .lost (countUp n SYNC_LOSSES s) = u at entered
  split
  · exact receiveStop (frame (entered.transmitStop n) (by simp)) n
  · exact transmitStop (receiveStop (entered.frame (by simp)) n) n

/-- A line that has stopped takes part in nothing. -/
theorem quiet_of_stopped {n : Line} {fc : BitVec 32} (h : Stopped n fc t) (ha : t.arb = s.arb.withdrawn n) : t.Quiet n where
  store := Store.idle_of_quiet h.store
  load hl := ((loadOutstanding_withdrawn ha n).mp hl).2 rfl
  held x := by rw [h.readers]; simp [Reader.reset]

/-- A line that stops if it runs, whatever its line unit is then. -/
theorem stopIfRunning (h : HoldsBy s.running s) {n : Line} (ht : t.stores = (stopIfRunning n s).stores
    ∧ t.readers = (stopIfRunning n s).readers ∧ t.arb = (Machine.stopIfRunning n s).arb)
    (hr : ∀ m, m ≠ n → t.running m = s.running m) : HoldsBy t.running t := by
  have stopped : HoldsBy s.running t := by
    refine HoldsBy.frame (s := Machine.stopIfRunning n s) ?_ ht
    unfold Machine.stopIfRunning; split
    · exact h.stopLine n
    · exact h
  refine stopped.withRun fun m hm => ?_
  by_cases hmn : m = n
  · subst hmn
    have stop : Machine.stopIfRunning m s = Machine.stopLine m s := if_pos hm
    rw [stop] at ht
    have done := stopLine_stopped m s
    have quiet := quiet_of_stopped done (stopLine_arb m s)
    exact .inr ⟨by rw [ht.1]; exact quiet.store,
      fun hl => quiet.load ((loadOutstanding_congr (by rw [ht.2.2]) (by rw [ht.2.2]) m).mp hl),
      by rw [ht.2.1]; exact quiet.held⟩
  · exact .inl (by rw [hr m hmn]; exact hm)

/-! ### The receive side -/

theorem acquire (h : HoldsBy run s) {n : Line} (hn : n ≠ hostLine ∧ run n = true)
    (hf : ∀ i, ((s.stores.get n).buffers.get i).state ≠ .filling) : HoldsBy run (acquire n s) := by
  have stores := fun x => acquire_stores n x s
  cases hc : (s.stores.get n).choose with
  | some i =>
    rw [hc] at stores
    have kept := (h.store n).replace (i := i) (.become ((s.stores.get n).buffers.get i) (.inr rfl))
      ((h.store n).unheld_of_choose hc) (fun _ => LineSet.get_empty _) (fun _ => ⟨hn, fun j _ => hf j⟩)
      (st' := { (s.stores.get n).modify i (fun b => b.become .filling) with overrunRun := false })
      (fun j => Store.modify_buffer _ i j fun b => b.become .filling) (fun _ => hn)
    exact h.withStore kept.1 kept.2 stores (by simp) (by simp)
  | none =>
    rw [hc] at stores
    exact h.withStore (st := { s.stores.get n with discarding := true, overrunRun := true })
      ⟨(h.store n).buffer, (h.store n).oneFilling, (h.store n).filling, fun _ => hn⟩ (.refl _) stores
      (by simp) (by simp)

theorem receiveBoundary (h : HoldsBy run s) {n : Line} (hn : n ≠ hostLine ∧ run n = true) (frame : List Word)
    (short : Bool) : HoldsBy run (receiveBoundary n frame short s) := by
  by_cases hr : (s.stores.get n).receiving = true
  · rw [receiveBoundary_of_receiving frame short hr]
    obtain ⟨lawful, idle, same⟩ := (h.store n).complete (judge (s.lines.get n) frame short).damaged frame
    have stores : ∀ x, (modifyStore n (fun st => st.complete (judge (s.lines.get n) frame short).damaged frame)
        (report n (judge (s.lines.get n) frame short) s)).stores.get x = if x = n then
          (s.stores.get n).complete (judge (s.lines.get n) frame short).damaged frame else s.stores.get x := fun x => by
      rw [modifyStore_stores, report_stores]
    refine HoldsBy.frame (HoldsBy.acquire (h.withStore lawful same stores (by simp) (by simp)) hn fun i => ?_) (by simp)
    rw [stores, if_pos rfl]; exact idle i
  · have idle := Store.idle_of_not_receiving (Bool.eq_false_iff.mpr hr)
    rw [Machine.receiveBoundary, if_neg hr]
    exact h.acquire hn idle.1

theorem placeInsert (h : HoldsBy run s) (f : InsertFrame) : HoldsBy run (placeInsert f s) := by
  have kept := h.store hostLine
  unfold Machine.placeInsert; split
  · next i hc =>
    have unheld := kept.unheld_of_choose hc
    obtain ⟨lawful, same⟩ := kept.replace (i := i) (.take ((s.stores.get hostLine).buffers.get i)
        ((s.stores.get hostLine).frameCount + 1) false f.words) unheld (fun _ => LineSet.get_empty _) (fun hs => (by cases hs))
      (st' := { (s.stores.get hostLine).modify i (fun b => b.take ((s.stores.get hostLine).frameCount + 1) false f.words) with
        frameCount := (s.stores.get hostLine).frameCount + 1, overrunRun := false })
      (fun j => Store.modify_buffer _ i j fun b => b.take ((s.stores.get hostLine).frameCount + 1) false f.words)
      kept.discarding
    exact h.withStore lawful same (fun x => modifyStore_stores ..) (by simp) (by simp)
  · refine h.withStore (n := hostLine) (st := { s.stores.get hostLine with
        frameCount := (s.stores.get hostLine).frameCount + 1, overrunRun := true })
      ⟨kept.buffer, kept.oneFilling, kept.filling, kept.discarding⟩ (.refl _) (fun x => ?_) (by simp) (by simp)
    rw [modifyStore_stores, overrun_stores, overrun_stores, if_pos rfl]
    split <;> rfl

theorem hostBoundary (h : HoldsBy run s) : HoldsBy run (hostBoundary s) := by
  refine HoldsBy.frame (s := handOver s) ?_ (by simp [Machine.hostBoundary])
  unfold handOver; split
  · exact (h.frame (by simp)).placeInsert _
  · dsimp only; split <;> exact h.frame (by simp)

/-! ### The arbiter -/

/-- A grant that is no live load, with the load queue kept. -/
theorem withGrant (h : HoldsBy run s) (hs : t.stores = s.stores) (hr : t.readers = s.readers)
    (hq : t.arb.loadQueue = s.arb.loadQueue) (hg : ∀ y p, t.arb.grant ≠ some (.load y p true)) : HoldsBy run t := by
  have same : ∀ m, t.loadOutstanding m → s.loadOutstanding m := by
    rintro m (hm | ⟨p, hp⟩)
    · exact .inl (hq ▸ hm)
    · exact absurd hp (hg m p)
  refine ⟨fun x => by rw [hs]; exact h.store x, fun y x => by rw [hs, hr]; exact h.reader y x,
    ⟨by rw [hq]; exact h.once.nodup, fun m p hp => absurd hp (hg m p)⟩, fun m hm => h.outstanding m (same m hm), fun m hm => ?_⟩
  rw [hr]; exact h.empty m (hm.imp_right (same m))

theorem freePort (h : HoldsBy run s) : HoldsBy run (freePort s) :=
  h.withGrant rfl rfl rfl fun y p hp => (by cases hp)

theorem arbiterGrant (h : HoldsBy run s) : HoldsBy run (arbiterGrant s) := by
  unfold Machine.arbiterGrant; split
  · exact h
  next hg =>
  split
  · next y rest hq =>
    have hnodup : y ∉ rest ∧ rest.Nodup := List.nodup_cons.mp (hq ▸ h.once.nodup)
    have same : ∀ m, (s.withArb { s.arb with loadQueue := rest, grant := some (loadGrant s y) }).loadOutstanding m
        → s.loadOutstanding m := by
      rintro m (hm | ⟨p, hp⟩)
      · exact .inl (hq ▸ List.mem_cons_of_mem y hm)
      · cases hp; exact .inl (hq ▸ List.mem_cons_self)
    exact ⟨h.store, h.reader, ⟨hnodup.2, fun m p hp => by cases hp; exact hnodup.1⟩, fun m hm => h.outstanding m (same m hm),
      fun m hm => h.empty m (hm.imp_right (same m))⟩
  · split
    · next op _ => exact h.withGrant rfl rfl rfl fun y p => (by cases op <;> simp [hostGrant])
    · split
      · next i _ => exact h.withGrant rfl rfl rfl fun y p => (by simp)
      · exact h

end HoldsBy

end Sys2Proof.Machine
end

section
set_option Elab.async false -- one proof after the other, within the check's limit on threads
/-! Stores, loads, readers and holder sets stay in agreement at the selection of a load, at the host accesses and at every step:
the settling of obligation O53. -/

namespace Sys2Proof.Machine

/-! ### Selection (R59, R62 to R64) -/

/-- A reader of a line that holds nothing of the store, which takes nothing of it. -/
theorem Reader.Agrees.ofNone {y : Line} {st : Store} {r r' : Reader} (h : r.Agrees y st) (hr : r.held = none)
    (hr' : r'.held = none) : r'.Agrees y st where
  holds i := by rw [h.holds, hr, hr']
  number i hi := by rw [hr'] at hi; cases hi

theorem Buffer.hold_holders (y z : Line) (b : Buffer) :
    (b.hold y).holders.get z = if z = y then true else b.holders.get z := Tab.get_put ..

/-- Line `y` takes the frame of a READY buffer. -/
theorem Store.Lawful.hold {live : Prop} {st : Store} (h : st.Lawful live) {b : Fin 4} (hb : (st.buffers.get b).state = .ready)
    (y : Line) : (st.modify b (Buffer.hold y)).Lawful live := by
  have buffer := fun j => st.modify_buffer b j (Buffer.hold y)
  have state : ∀ j, ((st.modify b (Buffer.hold y)).buffers.get j).state = (st.buffers.get j).state := fun j => by
    rw [buffer]; split
    · next hj => rw [hj]; rfl
    · rfl
  refine ⟨fun j => ?_, fun i j => ?_, fun i => ?_, h.discarding⟩
  · rw [buffer]; split
    · exact (h.buffer b).hold hb y
    · exact h.buffer j
  · rw [state, state]; exact h.oneFilling i j
  · rw [state]; exact h.filling i

theorem Reader.Agrees.hold {y z : Line} {st : Store} {r : Reader} {b : Fin 4} {n : BitVec 32} (h : r.Agrees z st)
    (hn : (st.buffers.get b).number = some n) (hr : z = y → r.held = none) :
    (if z = y then Reader.mk (some n) (some b) else r).Agrees z (st.modify b (Buffer.hold y)) := by
  have number : ∀ i, ((st.modify b (Buffer.hold y)).buffers.get i).number = (st.buffers.get i).number := fun i => by
    rw [Store.modify_buffer]; split
    · next hi => rw [hi]; rfl
    · rfl
  have holders : ∀ i, ((st.modify b (Buffer.hold y)).buffers.get i).holders.get z
      = if i = b ∧ z = y then true else (st.buffers.get i).holders.get z := fun i => by
    rw [Store.modify_buffer]
    by_cases hi : i = b
    · subst hi; rw [if_pos rfl, Buffer.hold_holders]; simp
    · simp [hi]
  refine ⟨fun i => ?_, fun i hi => ?_⟩
  · rw [holders]
    by_cases hz : z = y
    · have := h.holds i
      rw [hr hz] at this
      by_cases hi : i = b
      · simp [hz, hi]
      · simp only [hz, hi, and_true, if_true, if_false] at this ⊢
        simpa [Ne.symm hi] using this
    · simpa [hz] using h.holds i
  · rw [number]
    by_cases hz : z = y
    · rw [if_pos hz] at hi ⊢
      cases hi; exact hn
    · rw [if_neg hz] at hi ⊢
      exact h.number i hi

/-- A choice that takes a frame takes the newest ready one. -/
theorem choiceOf_take {s : State} {check : Bool} {program : List MapEntry} {x : Line} {b : Fin 4} {n : BitVec 32}
    (h : choiceOf s check program x = .take b n) :
    ((s.stores.get x).buffers.get b).state = .ready ∧ ((s.stores.get x).buffers.get b).number = some n := by
  refine ((s.stores.get x).mem_readyFrames b n).mp ?_
  unfold choiceOf at h
  split at h
  · cases h
  split at h
  · cases h
  split at h
  · cases h
  split at h
  · cases h
  · next hn => cases h; exact List.mem_of_find?_eq_some hn

namespace HoldsBy

variable {run : Line → Bool} {s t : State}

theorem selectSources (h : HoldsBy run s) {y : Line} (hy : run y = true) (hl : ¬ s.loadOutstanding y)
    (hn : ∀ x, ((s.readers.get y).get x).held = none) (program : List MapEntry) : HoldsBy run (selectSources y program s) := by
  obtain ⟨-, own, other, stores, -, -⟩ := selectSources_spec y program s
  have arb : (Machine.selectSources y program s).arb = s.arb := by simp
  generalize Machine.selectSources y program s = t at *
  have sameLoads := fun m => loadOutstanding_congr (s := s) (t := t) (by rw [arb]) (by rw [arb]) m
  refine ⟨fun x => ?_, fun z x => ?_, by rw [arb]; exact h.once, fun m hm => h.outstanding m ((sameLoads m).mp hm),
    fun m hm => ?_⟩
  · rw [stores]
    cases hc : choiceOf s (s.lines.get y).config.checkEnable program x with
    | take b n => exact (h.store x).hold (choiceOf_take hc).1 y
    | _ => exact h.store x
  · have reader : (t.readers.get z).get x = if z = y then
        (choiceOf s (s.lines.get y).config.checkEnable program x).reader else (s.readers.get z).get x := by
      split
      · next hz => rw [hz, own]
      · next hz => rw [other z hz]
    rw [reader, stores]
    cases hc : choiceOf s (s.lines.get y).config.checkEnable program x with
    | take b n => exact (h.reader z x).hold (choiceOf_take hc).2 fun hz => hz ▸ hn x
    | _ =>
      split
      · next hz => subst hz; exact (h.reader z x).ofNone (hn x) rfl
      · exact h.reader z x
  · have hm := hm.imp_right (sameLoads m).mp
    have hne : m ≠ y := by
      rintro rfl
      obtain hm | hm := hm
      · rw [hy] at hm; cases hm
      · exact hl hm
    rw [other m hne]
    exact h.empty m hm

theorem loadComplete (h : HoldsBy run s) : HoldsBy run (loadComplete s) := by
  by_cases hg : ∃ y p live, s.arb.grant = some (.load y p live)
  · obtain ⟨y, p, live, hg⟩ := hg
    cases live with
    | false => rw [loadComplete_of_dead hg]; exact h.freePort
    | true =>
      have out : s.loadOutstanding y := .inr ⟨p, hg⟩
      have gone : ¬ (Machine.freePort s).loadOutstanding y := by
        rintro (hm | ⟨q, hq⟩)
        · exact h.once.granted y p hg hm
        · cases hq
      rw [loadComplete_of_live hg]
      exact (h.freePort.selectSources (h.outstanding y out) gone (h.empty y (.inr out)) p).frame (by simp [fixFrame])
  · rw [loadComplete_of_no_load (fun y p live h => hg ⟨y, p, live, h⟩)]; exact h

/-- Nothing is held, received or claimed where every buffer is FREE, no reader holds and no load is outstanding. -/
theorem ofEmpty (hb : ∀ x i, ((s.stores.get x).buffers.get i).state = .free ∧ ((s.stores.get x).buffers.get i).number = none
      ∧ ((s.stores.get x).buffers.get i).damaged = false ∧ ∀ y, ((s.stores.get x).buffers.get i).holders.get y = false)
    (hd : ∀ x, (s.stores.get x).discarding = false) (hr : ∀ y x, ((s.readers.get y).get x).held = none)
    (hq : s.arb.loadQueue = []) (hg : ∀ y p, s.arb.grant ≠ some (.load y p true)) : HoldsBy run s where
  store x := by
    refine ⟨fun i => ?_, fun i j hi => ?_, fun i hi => ?_, fun h => ?_⟩
    · obtain ⟨hf, rest⟩ := hb x i
      exact ⟨fun _ => rest, by simp [hf], by simp [hf]⟩
    · rw [(hb x i).1] at hi; cases hi
    · rw [(hb x i).1] at hi; cases hi
    · rw [hd] at h; cases h
  reader y x := ⟨fun i => by rw [hr, (hb x i).2.2.2]; simp, fun i hi => by rw [hr] at hi; cases hi⟩
  once := ⟨by rw [hq]; exact List.nodup_nil, fun y p h => absurd h (hg y p)⟩
  outstanding y hy := by
    obtain hm | ⟨p, hp⟩ := hy
    · rw [hq] at hm; cases hm
    · exact absurd hp (hg y p)
  empty y _ := hr y

theorem exchangeRestart (s : State) : HoldsBy run (exchangeRestart s) := by
  refine ofEmpty (fun x i => ?_) (fun x => ?_) (fun y x => ?_) rfl fun y p hg => ?_
  · simp [Machine.exchangeRestart, Store.restarted, Buffer.become, LineSet.empty]
  · simp [Machine.exchangeRestart, Store.restarted]
  · simp [Machine.exchangeRestart, Reader.reset]
  · obtain ⟨g, -, hg⟩ := Option.map_eq_some_iff.mp hg
    cases g <;> cases hg

theorem reset : HoldsBy run State.reset := by
  refine ofEmpty (fun x i => ?_) (fun x => ?_) (fun y x => ?_) rfl fun y p hg => (by cases hg)
  · simp [State.reset, Store.reset, Buffer.reset, LineSet.empty]
  · simp [State.reset, Store.reset]
  · simp [State.reset, Reader.reset]

end HoldsBy

/-! ### Every step -/

namespace HoldingLaw

/-- The law where only running lines may be others, and none of those that stop takes part in anything. -/
theorem ofFrame {s t : State} (hr : ReceiverLaw t) (h : HoldsBy s.running t)
    (k : ∀ m, s.running m = true → t.running m = true ∨ t.Quiet m) : HoldingLaw t :=
  (holdingLaw_iff t).mpr ⟨hr, h.withRun k⟩

theorem restsOn : RestsOn HoldingLaw [.lines, .stores, .readers, .arb] := by
  intro s t h hs
  have hl : t.lines = s.lines := h .lines (by simp)
  have stores : t.stores = s.stores := h .stores (by simp)
  have readers : t.readers = s.readers := h .readers (by simp)
  have arb : t.arb = s.arb := h .arb (by simp)
  obtain ⟨hr, hh⟩ := (holdingLaw_iff s).mp hs
  exact ofFrame (receiverLaw_restsOn _ _ (fun f hf => by rw [List.mem_singleton.mp hf]; exact hl) hr)
    (hh.frame ⟨stores, readers, arb⟩) fun m hm => .inl (by rw [running_congr hl]; exact hm)

/-- The law rests on the receivers, the running lines, the stores, the readers and the loads of the arbiter. -/
theorem congr {s t : State} (h : HoldingLaw s) (hr : ReceiverLaw t) (hrun : ∀ m, s.running m = true → t.running m = true)
    (ht : t.stores = s.stores ∧ t.readers = s.readers ∧ t.arb.loadQueue = s.arb.loadQueue ∧ t.arb.grant = s.arb.grant) :
    HoldingLaw t :=
  ofFrame hr (((holdingLaw_iff s).mp h).2.congr ht.1 ht.2.1 ht.2.2.1 ht.2.2.2) fun m hm => .inl (hrun m hm)

theorem running_of_locked {s : State} (h : ReceiverLaw s) {n : Line} (hr : s.receiver n = .locked) : s.running n = true := by
  have hr : (s.lines.get n).receiver = .locked := hr
  have hen := (h.1 n).1.mpr (by rw [hr]; decide)
  simp [State.running, LineUnit.running, hen, hr]

theorem not_running_of_receiver {s : State} {n : Line} (hr : s.receiver n ≠ .locked) : s.running n ≠ true := by
  simp only [State.receiver] at hr
  simp [State.running, LineUnit.running, hr]

/-- A line unit changes of a line that does not run, or of one that stays LOCKED and enabled. -/
theorem running_put {s t : State} {n : Line} {l : LineUnit} (ht : ∀ m, t.lines.get m = if m = n then l else s.lines.get m)
    (h : s.running n = true → l.running = true) (m : Line) (hm : s.running m = true) : t.running m = true := by
  rw [State.running, ht]; split
  · next hmn => subst hmn; exact h hm
  · exact hm

theorem keptByLineEvents : KeptByLineEvents HoldingLaw where
  count n s h := restsOn _ _ (by simp [Field.same]) h
  begins n s h := restsOn _ _ (by simp [Field.same]) h
  starts g k s h := restsOn _ _ (by simp [Field.same]) h
  verifies p k s he hl hd hk h :=
    h.congr (ReceiverLaw.keptByLineEvents.verifies p k s he hl hd hk h.1)
      (running_put (fun m => verifying_lines p.line m k s) fun hr => absurd hr (not_running_of_receiver hl))
      ⟨rfl, rfl, rfl, rfl⟩
  hunts p s hr h :=
    h.congr (ReceiverLaw.keptByLineEvents.hunts p s hr h.1)
      (running_put (fun m => enterReceiver_lines p.line m .hunt s)
        fun hc => absurd hc (not_running_of_receiver (by rw [hr]; decide)))
      ⟨rfl, rfl, rfl, rfl⟩
  locks n s hcan h :=
    h.congr (ReceiverLaw.keptByLineEvents.locks n s hcan h.1)
      (running_put (fun m => lock_lines n m s) fun hc => (by simp_all [State.running, LineUnit.running])) (by simp)
  rearms p e s he hr hle h :=
    h.congr (ReceiverLaw.keptByLineEvents.rearms p e s he hr hle h.1)
      (running_put (fun m => rearm_lines p.line m e s) fun hc => hc) ⟨rfl, rfl, rfl, rfl⟩
  loses p tx s he hr h := by
    have law := ReceiverLaw.keptByLineEvents.loses p tx s he hr h.1
    refine ofFrame law (((holdingLaw_iff s).mp h).2.enterLost p.line tx) fun m hm => ?_
    by_cases hmp : m = p.line
    · subst hmp
      exact .inr (HoldsBy.quiet_of_stopped (enterLost_stopped p.line tx s) (enterLost_arb p.line tx s))
    · refine .inl ?_
      rw [State.running, (enterLost_rest p.line m tx s).1, if_neg hmp]; exact hm
  receives p frame short s hr h := by
    have law := ReceiverLaw.keptByLineEvents.receives p frame short s hr h.1
    refine ofFrame law (((holdingLaw_iff s).mp h).2.receiveBoundary ⟨physLine_ne_host p, running_of_locked h.1 hr⟩ frame short)
      fun m hm => .inl ?_
    rw [State.running, receiveBoundary_lines]; split
    · next hmp => rw [← hmp.1]; exact hm
    · exact hm
  transmits n s hr h :=
    ofFrame (ReceiverLaw.keptByLineEvents.transmits n s hr h.1)
      (((holdingLaw_iff s).mp h).2.transmitBoundary (running_of_locked h.1 hr))
      fun m hm => .inl (by rw [running_congr (s := s) (by simp)]; exact hm)
  hostBounds s hr h :=
    ofFrame (ReceiverLaw.keptByLineEvents.hostBounds s hr h.1) ((holdingLaw_iff s).mp h).2.hostBoundary
      fun m hm => .inl (by rw [running_congr (s := s) (by simp)]; exact hm)

end HoldingLaw

namespace HoldsBy

/-- The law where lines that run go on running. -/
theorem kept {s t : State} (h : HoldsBy s.running s) (hr : ∀ m, s.running m = true → t.running m = true)
    (ht : t.stores = s.stores ∧ t.readers = s.readers ∧ t.arb.loadQueue = s.arb.loadQueue ∧ t.arb.grant = s.arb.grant) :
    HoldsBy t.running t :=
  (h.congr ht.1 ht.2.1 ht.2.2.1 ht.2.2.2).withRun fun m hm => .inl (hr m hm)

theorem restsOn : RestsOn (fun s => HoldsBy s.running s) [.lines, .stores, .readers, .arb] := by
  intro s t h hs
  have hl : t.lines = s.lines := h .lines (by simp)
  have arb : t.arb = s.arb := h .arb (by simp)
  exact hs.kept (fun m hm => by rw [running_congr hl]; exact hm) ⟨h .stores (by simp), h .readers (by simp), by rw [arb], by rw [arb]⟩

theorem releaseLines (named : Line → Bool) {s : State} (h : HoldsBy s.running s) :
    HoldsBy (releaseLines named s).running (releaseLines named s) := by
  refine h.kept (fun m hm => ?_) (by simp)
  have line := (releaseLines_spec named s m).1
  rw [State.running, line]; split
  · split
    · next hl => simp [State.running, LineUnit.running, hl] at hm
    · exact hm
  · exact hm

theorem takeHeld (c : Instr) {s : State} (h : HoldsBy s.running s) :
    HoldsBy (takeHeld c s).running (takeHeld c s) := by
  cases c
  case exchangeRestart => exact HoldsBy.exchangeRestart s
  case lineEnable v =>
    refine lineEnable_keeps (P := fun t => HoldsBy t.running t) (fun n t hoff ht => ht.kept (fun m hm => ?_) (by simp)) v s h
    have hne : m ≠ n := by rintro rfl; simp [State.running, LineUnit.running, hoff] at hm
    rw [State.running, enableLine_lines, if_neg fun hc => hne hc.1]; exact hm
  case lineDisable v =>
    refine lineDisable_keeps (P := fun t => HoldsBy t.running t) (fun n t _ ht => ?_) v s h
    obtain ⟨readers, stores, -, -, -, arb, -⟩ := disableLine_rest n t
    exact ht.stopIfRunning ⟨stores, readers, arb⟩ fun m hm => by rw [State.running, disableLine_lines, if_neg hm]; rfl
  case lineRestart v =>
    refine lineRestart_keeps (P := fun t => HoldsBy t.running t) (fun n t _ ht => ?_) v s h
    obtain ⟨readers, stores, -, -, -, arb, -⟩ := restartLine_rest n t
    exact ht.stopIfRunning ⟨stores, readers, arb⟩ fun m hm => by rw [State.running, restartLine_lines, if_neg hm]; rfl
  case fgStop v =>
    refine fgStop_keeps (P := fun t => HoldsBy t.running t) (fun n g t _ _ ht => ?_) (fun g t ht => ht.kept (fun _ => id) (by simp))
      v s h
    obtain ⟨readers, -, -, stores, -⟩ := haltLine_rest n t
    exact ht.stopIfRunning ⟨stores, readers, haltLine_arb n t⟩ fun m hm => by rw [State.running, haltLine_lines, if_neg hm]; rfl
  case lineRelease v => exact h.releaseLines _
  case groupRelease v => exact h.releaseLines _
  case tpWrite =>
    have effect := tpWrite_effect s
    change HoldsBy (tpWrite s).running (tpWrite s)
    generalize tpWrite s = t at effect ⊢
    cases effect with
    | refused => exact h.kept (fun _ => id) (by simp)
    | claims => exact h.kept (fun _ => id) (by simp [placeHostClaim])
    | config n c _ _ =>
      refine h.kept (fun m hm => ?_) (by simp)
      rw [State.running, (tpEnd_frame ..).1, writeConfig_lines]; split
      · next hmn => subst hmn; exact hm
      · exact hm
  case tpRead =>
    have effect := tpRead_effect s
    change HoldsBy (tpRead s).running (tpRead s)
    generalize tpRead s = t at effect ⊢
    cases effect with
    | refused | reads => exact h.kept (fun m hm => by rw [running_congr (s := s) (by simp)]; exact hm) (by simp)
    | claims => exact h.kept (fun _ => id) (by simp [placeHostClaim])
  case copy =>
    change HoldsBy (Machine.copy s).running (Machine.copy s)
    unfold Machine.copy; split
    · exact h.kept (fun _ => id) ⟨rfl, rfl, rfl, rfl⟩
    · exact h.kept (fun _ => id) ⟨rfl, rfl, rfl, rfl⟩
  all_goals exact restsOn.keep (takeHeld_onlyChanges _ _) h

theorem copyStepComplete {run : Line → Bool} {s : State} (h : HoldsBy run s) : HoldsBy run (copyStepComplete s) := by
  have copying : ∀ t, HoldsBy run t → HoldsBy run (advanceCopy t) := by
    intro t ht
    unfold advanceCopy; dsimp only; split
    · exact ht.congr rfl rfl rfl rfl
    · exact ht.frame (by simp [completeCopy])
  unfold Machine.copyStepComplete; split
  · have freed : ∀ t : State, t.stores = s.stores → t.readers = s.readers → t.arb = s.arb → HoldsBy run (Machine.freePort t) :=
      fun t hs hr ha => (h.frame ⟨hs, hr, ha⟩).freePort
    dsimp only; split
    · exact copying _ (freed _ (by simp) (by simp) (by simp))
    · exact freed _ (by simp) (by simp) (by simp)
  all_goals exact h

theorem bitClock {run : Line → Bool} {s : State} (h : HoldsBy run s) (n : Line) (b : Bool) :
    HoldsBy run (bitClock n b s) :=
  h.withStores (fun x => (h.store x).sameFrames (bitClock_same n x b s)) (by simp) (by simp)

end HoldsBy

namespace HoldingLaw

/-- The law where the line units are kept. -/
theorem ofLines {s t : State} (h : HoldingLaw s) (hl : t.lines = s.lines) (k : HoldsBy s.running t) : HoldingLaw t :=
  ofFrame (receiverLaw_restsOn _ _ (fun f hf => by rw [List.mem_singleton.mp hf]; exact hl) h.1) k
    fun m hm => .inl (by rw [running_congr hl]; exact hm)

theorem kept : Kept HoldingLaw :=
  keptByLineEvents.kept restsOn
    (bit := fun n b s h => h.ofLines (by simp) (((holdingLaw_iff s).mp h).2.bitClock n b))
    (reset := (holdingLaw_iff _).mpr ⟨ReceiverLaw.reset, .reset⟩)
    (grant := fun s h => h.ofLines (by simp) ((holdingLaw_iff s).mp h).2.arbiterGrant)
    (load := fun s h => ofFrame (ReceiverLaw.loadComplete h.1) ((holdingLaw_iff s).mp h).2.loadComplete
      fun m hm => .inl (by rw [BankPairLaw.loadComplete_running]; exact hm))
    (copyStep := fun s h => h.ofLines (by simp) ((holdingLaw_iff s).mp h).2.copyStepComplete)
    (mapRead := fun e s _ h => h.ofLines (by simp) (((holdingLaw_iff s).mp h).2.withGrant (by simp) (by simp)
      (by simp [finishMapRead]) (by simp [finishMapRead])))
    (mapWrite := fun e s _ h => h.ofLines (by simp) (((holdingLaw_iff s).mp h).2.withGrant (by simp) (by simp)
      (by simp [finishMapWrite]) (by simp [finishMapWrite])))
    (timeOut := fun s h => h.ofLines (by simp) (((holdingLaw_iff s).mp h).2.congr (by simp) (by simp)
      (by simp [timeOut]) (by simp [timeOut])))
    (access := fun c s _ h => (holdingLaw_iff _).mpr ⟨ReceiverLaw.takeHeld c h.1, ((holdingLaw_iff s).mp h).2.takeHeld c⟩)

end HoldingLaw

/-- Settles O53: every operation of a line keeps the agreement for the lines that run before it, and the lines that it stops take
part in nothing afterwards. -/
theorem holdersAndReadersStayInAgreement : Obligations.HoldersAndReadersStayInAgreement :=
  fun _ _ h hstep => HoldingLaw.kept.step h hstep

end Sys2Proof.Machine
end

section
set_option Elab.async false -- one proof after the other, within the check's limit on threads
/-! The laws at a device reset: the settling of obligation O50. -/

namespace Sys2Proof.Machine

/-- Settles O50: the state after a device reset is one of the states at which each law's keeping was shown. -/
theorem lawsHoldAtReset : Obligations.LawsHoldAtReset := by
  obtain ⟨host, windows⟩ := SupervisionLaw.kept.reset
  exact ⟨ReceiverLaw.reset, ConfigLaw.reset, HoldingLaw.kept.reset, BankPairLaw.kept.reset, CopyingLaw.kept.reset.2,
    SuspensionLaw.kept.reset, EventQueueLaw.kept.reset, HostBlockLaw.kept.reset, host, windows, TablePortLaw.kept.reset,
    ReadyLaw.of_no_access rfl⟩

end Sys2Proof.Machine
end

section
set_option Elab.async false -- one proof after the other, within the check's limit on threads
/-! Holders that leave and stores that are emptied: how the changes that the stops and the boundaries of several lines make to
one buffer compose (R40, R50, R60). -/

namespace Sys2Proof.Machine

/-- The lines of either set. -/
def eitherLine (a b : Line → Bool) (n : Line) : Bool := a n || b n

theorem eitherLine_eq_true {a b : Line → Bool} {n : Line} : eitherLine a b n = true ↔ a n = true ∨ b n = true := by
  rw [eitherLine, Bool.or_eq_true]

namespace Buffer

/-- The buffer is RETIRED, and the lines that `leave` names are the last that hold it. -/
def LastLeft (leave : Line → Bool) (b : Buffer) : Prop :=
  b.state = .retired ∧ (∃ z, b.holders.get z = true) ∧ ∀ z, b.holders.get z = true → leave z = true

namespace LeftBy

variable {a : Line → Bool} {b c : Buffer} (h : b.LeftBy a c)
include h

theorem holders (z : Line) : c.holders.get z = (b.holders.get z && !a z) := h.1 z

theorem freed (hl : b.LastLeft a) : c = { b with state := .free, number := none, damaged := false, holders := c.holders } := by
  obtain ⟨-, hc⟩ := h
  unfold LastLeft at hl
  rwa [if_pos hl] at hc

theorem kept (hl : ¬ b.LastLeft a) : c = { b with holders := c.holders } := by
  obtain ⟨-, hc⟩ := h
  unfold LastLeft at hl
  rwa [if_neg hl] at hc

end LeftBy

theorem LeftBy.of {a : Line → Bool} {b c : Buffer} (hh : ∀ z, c.holders.get z = (b.holders.get z && !a z))
    (hl : b.LastLeft a → c = { b with state := .free, number := none, damaged := false, holders := c.holders })
    (hk : ¬ b.LastLeft a → c = { b with holders := c.holders }) : b.LeftBy a c := by
  refine ⟨hh, ?_⟩
  split
  · next h => exact hl h
  · next h => exact hk h

theorem LeftBy.refl (b : Buffer) : b.LeftBy (fun _ => false) b :=
  .of (fun z => by simp) (fun ⟨_, ⟨z, hz⟩, hall⟩ => (by cases hall z hz)) fun _ => rfl

theorem leftBy_release (n : Line) (b : Buffer) : b.LeftBy (· == n) (b.release n) := by
  refine .of (fun z => ?_) (fun ⟨hret, ⟨z, hz⟩, hall⟩ => ?_) fun hl => ?_
  · rw [release_holders]
    by_cases hz : z = n <;> simp [hz]
  · obtain ⟨hr, -⟩ | ⟨hrest, hr⟩ := b.release_cases n
    · rw [hr]; rfl
    · obtain rfl := beq_iff_eq.mp (hall z hz)
      obtain ⟨w, hw, hold⟩ := hrest hret hz
      exact absurd (beq_iff_eq.mp (hall w hold)) hw
  · obtain ⟨-, hret, hn, hno⟩ | ⟨-, hr⟩ := b.release_cases n
    · refine absurd ⟨hret, ⟨n, hn⟩, fun z hz => beq_iff_eq.mpr ?_⟩ hl
      by_contra hne
      rw [hno z hne] at hz; cases hz
    · rw [hr]

theorem LeftBy.trans {a a' : Line → Bool} {b c d : Buffer} (h : b.LeftBy a c) (k : c.LeftBy a' d) :
    b.LeftBy (eitherLine a a') d := by
  have holders : ∀ z, c.holders.get z = true ↔ b.holders.get z = true ∧ a z = false := fun z => by
    rw [h.holders, Bool.and_eq_true, Bool.not_eq_true']
  have split : ¬ b.LastLeft a → (b.LastLeft (eitherLine a a') ↔ c.LastLeft a') := by
    intro hn
    have state : c.state = b.state := by rw [h.kept hn]
    constructor
    · rintro ⟨hret, hsome, hall⟩
      refine ⟨state.trans hret, ?_, fun z hz => ?_⟩
      · by_contra hno
        refine hn ⟨hret, hsome, fun z hz => ?_⟩
        by_contra ha
        exact hno ⟨z, (holders z).mpr ⟨hz, Bool.eq_false_iff.mpr ha⟩⟩
      · obtain ⟨hz, ha⟩ := (holders z).mp hz
        exact (eitherLine_eq_true.mp (hall z hz)).resolve_left (by simp [ha])
    · rintro ⟨hret, ⟨z, hz⟩, hall⟩
      refine ⟨state.symm.trans hret, ⟨z, ((holders z).mp hz).1⟩, fun w hw => eitherLine_eq_true.mpr ?_⟩
      by_cases ha : a w = true
      · exact .inl ha
      · exact .inr (hall w ((holders w).mpr ⟨hw, Bool.eq_false_iff.mpr ha⟩))
  refine .of (fun z => ?_) (fun hl => ?_) fun hl => ?_
  · rw [k.holders, h.holders, eitherLine, Bool.not_or, Bool.and_assoc]
  · by_cases ha : b.LastLeft a
    · have free : ¬ c.LastLeft a' := by
        rintro ⟨hret, -⟩
        rw [h.freed ha] at hret; cases hret
      rw [k.kept free, h.freed ha]
    · rw [k.freed ((split ha).mp hl), h.kept ha]
  · have ha : ¬ b.LastLeft a := fun ⟨hret, hsome, hall⟩ =>
      hl ⟨hret, hsome, fun z hz => eitherLine_eq_true.mpr (.inl (hall z hz))⟩
    rw [k.kept fun hc => hl ((split ha).mpr hc), h.kept ha]

theorem emptiedBy_emptied (b : Buffer) : b.EmptiedBy (fun _ => false) b.emptied := by
  unfold emptied
  cases hs : b.state with
  | free => exact ⟨fun _ => rfl, fun _ => rfl, by simp [hs], by simp [hs]⟩
  | filling => exact ⟨fun h => absurd hs h, by simp [hs], by simp [hs], fun _ => ⟨rfl, rfl, rfl⟩⟩
  | ready =>
    dsimp only; split
    · next he =>
      have none := (isEmpty_iff _).mp he
      refine ⟨fun _ => rfl, by simp [hs], fun _ ⟨z, hz, _⟩ => ?_, fun _ => ⟨rfl, rfl, rfl⟩⟩
      rw [none z] at hz; cases hz
    · next he =>
      refine ⟨fun _ => rfl, by simp [hs], fun _ _ => ⟨rfl, fun z => by simp⟩, fun hf => ?_⟩
      obtain hf | ⟨-, hall⟩ := hf
      · rw [hs] at hf; cases hf
      · exact absurd ((isEmpty_iff _).mpr fun z => Bool.eq_false_iff.mpr fun hz => by cases hall z hz) he
  | retired =>
    refine ⟨fun _ => rfl, by simp [hs], fun _ _ => ⟨?_, fun z => by simp⟩, fun hf => ?_⟩
    · dsimp only
      rw [← hs]
    obtain hf | ⟨hr | ⟨-, z, hz⟩, hall⟩ := hf
    · rw [hs] at hf; cases hf
    · rw [hs] at hr; cases hr
    · cases hall z hz

namespace EmptiedBy

variable {a a' : Line → Bool} {b c d : Buffer}

/-- Holders leave before the line of the buffer stops. -/
theorem afterLeft (h : b.LeftBy a c) (k : c.EmptiedBy a' d) : b.EmptiedBy (eitherLine a a') d := by
  obtain ⟨words, free, held, ends⟩ := k
  have holders : ∀ z, c.holders.get z = true ↔ b.holders.get z = true ∧ a z = false := fun z => by
    rw [h.holders, Bool.and_eq_true, Bool.not_eq_true']
  have retired : ∀ {p : Prop}, b.state ≠ .retired → (b.LastLeft a → p) := fun hn hl => absurd hl.1 hn
  have left : ∀ z, (b.holders.get z = true → eitherLine a a' z = true) → c.holders.get z = true → a' z = true := by
    intro z hall hz
    obtain ⟨hz, ha⟩ := (holders z).mp hz
    exact (eitherLine_eq_true.mp (hall hz)).resolve_left (by simp [ha])
  refine ⟨fun hf => ?_, fun hf => ?_, fun hs ⟨z, hz, hout⟩ => ?_, fun hf => ?_⟩
  · by_cases ha : b.LastLeft a
    · rw [words (by rw [h.freed ha]; simp), h.freed ha]
    · rw [words (by rw [h.kept ha]; exact hf), h.kept ha]
  · have kept := h.kept (retired (by simp [hf]))
    rw [free (by rw [kept]; exact hf), kept]
  · obtain ⟨ha, ha'⟩ := Bool.or_eq_false_iff.mp hout
    have kept := h.kept fun hl => by rw [hl.2.2 z hz] at ha; cases ha
    obtain ⟨hd, hh⟩ := held (by rw [kept]; exact hs) ⟨z, (holders z).mpr ⟨hz, ha⟩, ha'⟩
    refine ⟨by rw [hd, kept], fun w => ?_⟩
    rw [hh, h.holders, eitherLine, Bool.not_or, Bool.and_assoc]
  · obtain hf | ⟨hready | ⟨hret, hsome⟩, hall⟩ := hf
    · have kept := h.kept (retired (by simp [hf]))
      exact ends (.inl (by rw [kept]; exact hf))
    · have kept := h.kept (retired (by simp [hready]))
      exact ends (.inr ⟨.inl (by rw [kept]; exact hready), fun z => left z (hall z)⟩)
    · by_cases ha : b.LastLeft a
      · have hd := free (by rw [h.freed ha])
        rw [hd, h.freed ha]
        exact ⟨rfl, rfl, rfl⟩
      · have kept := h.kept ha
        have some : ∃ z, c.holders.get z = true := by
          by_contra hno
          refine ha ⟨hret, hsome, fun z hz => ?_⟩
          by_contra hn
          exact hno ⟨z, (holders z).mpr ⟨hz, Bool.eq_false_iff.mpr hn⟩⟩
        exact ends (.inr ⟨.inr ⟨by rw [kept]; exact hret, some⟩, fun z => left z (hall z)⟩)

/-- Holders leave after the line of the buffer has stopped. -/
theorem thenLeft (h : b.EmptiedBy a c) (k : c.LeftBy a' d) : b.EmptiedBy (eitherLine a a') d := by
  obtain ⟨words, free, held, ends⟩ := h
  have kwords : d.words = c.words := by
    by_cases hl : c.LastLeft a'
    · rw [k.freed hl]
    · rw [k.kept hl]
  have stays : c.state = .free → d = { c with holders := d.holders } := fun hf =>
    k.kept fun hl => by rw [hl.1] at hf; cases hf
  have gone : c.state = .free ∧ c.number = none ∧ c.damaged = false → d.state = .free ∧ d.number = none ∧ d.damaged = false := by
    intro hc; rw [stays hc.1]; exact hc
  refine ⟨fun hf => kwords.trans (words hf), fun hf => ?_, fun hs ⟨z, hz, hout⟩ => ?_, fun hf => ?_⟩
  · have hc := free hf
    rw [stays (by rw [hc]; exact hf), hc]
  · obtain ⟨ha, ha'⟩ := Bool.or_eq_false_iff.mp hout
    obtain ⟨hc, hh⟩ := held hs ⟨z, hz, ha⟩
    have kept := k.kept fun hl => by
      have := hl.2.2 z (by rw [hh, hz, ha]; rfl)
      rw [ha'] at this; cases this
    refine ⟨by rw [kept, hc], fun w => ?_⟩
    rw [k.holders, hh, eitherLine, Bool.not_or, Bool.and_assoc]
  · obtain hf | ⟨hs, hall⟩ := hf
    · exact gone (ends (.inl hf))
    by_cases ha : ∀ z, b.holders.get z = true → a z = true
    · exact gone (ends (.inr ⟨hs, ha⟩))
    · obtain ⟨z, hz, hout⟩ : ∃ z, b.holders.get z = true ∧ a z = false := by simpa using ha
      obtain ⟨hc, hh⟩ := held (hs.imp_right And.left) ⟨z, hz, hout⟩
      rw [k.freed ⟨by rw [hc], ⟨z, by rw [hh, hz, hout]; rfl⟩, fun w hw => ?_⟩]
      · exact ⟨rfl, rfl, rfl⟩
      · rw [hh, Bool.and_eq_true, Bool.not_eq_true'] at hw
        exact (eitherLine_eq_true.mp (hall w hw.1)).resolve_left (by simp [hw.2])

end EmptiedBy

end Buffer

end Sys2Proof.Machine
end

section
set_option Elab.async false -- one proof after the other, within the check's limit on threads
/-! What the stops of several lines do together (R51, R71, R85, R101): readers, stores, load claims, adoptions and records, as a
relation of the states before and after that composes. -/

namespace Sys2Proof.Machine

/-- No line. -/
def neither (_ : Line) : Bool := false

/-! ### Holds -/

theorem HoldsDropped.same {s t : State} (hr : t.readers = s.readers := by simp) (hs : t.stores = s.stores := by simp) :
    HoldsDropped neither s t := by
  refine ⟨fun y => by rw [hr]; rfl, fun x => ?_⟩
  rw [hs]
  exact ⟨rfl, fun _ => ⟨rfl, fun i => .refl _⟩, fun h => (by cases h)⟩

theorem HoldsDropped.trans {a b : Line → Bool} {s t u : State} (h : HoldsDropped a s t) (k : HoldsDropped b t u)
    (hd : ∀ n, a n = true → b n = false) : HoldsDropped (eitherLine a b) s u := by
  obtain ⟨hr, hs⟩ := h
  obtain ⟨kr, ks⟩ := k
  refine ⟨fun y => ?_, fun x => ?_⟩
  · rw [kr, hr, eitherLine]
    cases ha : a y with
    | true => rw [hd y ha]; rfl
    | false => rw [Bool.false_or]; rfl
  · obtain ⟨hcount, hother, hown⟩ := hs x
    obtain ⟨kcount, kother, kown⟩ := ks x
    refine ⟨kcount.trans hcount, fun hn => ?_, fun hn => ?_⟩
    · obtain ⟨ha, hb⟩ := Bool.or_eq_false_iff.mp hn
      obtain ⟨hst, hbuf⟩ := hother ha
      obtain ⟨kst, kbuf⟩ := kother hb
      exact ⟨by rw [kst, hst], fun i => (hbuf i).trans (kbuf i)⟩
    · obtain ha | hb := eitherLine_eq_true.mp hn
      · obtain ⟨hdisc, hrun, hbuf⟩ := hown ha
        obtain ⟨kst, kbuf⟩ := kother (hd x ha)
        exact ⟨by rw [kst]; exact hdisc, by rw [kst]; exact hrun, fun i => (hbuf i).thenLeft (kbuf i)⟩
      · have ha : a x = false := Bool.eq_false_iff.mpr fun ha => by rw [hd x ha] at hb; cases hb
        obtain ⟨kdisc, krun, kbuf⟩ := kown hb
        obtain ⟨-, hbuf⟩ := hother ha
        exact ⟨kdisc, krun, fun i => (kbuf i).afterLeft (hbuf i)⟩

/-- A line that stops drops its holds, and its store is emptied, in either order. -/
theorem HoldsDropped.stopped {n : Line} {s t : State}
    (hr : ∀ m, t.readers.get m = if m = n then Tab.all 9 .reset else s.readers.get m)
    (hs : ∀ x, t.stores.get x = (if x = n then (s.stores.get n).emptied else s.stores.get x).release n
      ∨ t.stores.get x = if x = n then ((s.stores.get n).release n).emptied else (s.stores.get x).release n) :
    HoldsDropped (· == n) s t := by
  refine ⟨fun y => ?_, fun x => ?_⟩
  · rw [hr]
    by_cases hy : y = n <;> simp [hy, Reader.reset]
  · have release : ∀ st : Store, ∀ i, (st.buffers.get i).LeftBy (· == n) ((st.release n).buffers.get i) := fun st i => by
      rw [Store.release_buffer]; exact Buffer.leftBy_release n _
    have whole : ∀ st : Store, st.release n = { st with buffers := (st.release n).buffers } := fun _ => rfl
    by_cases hx : x = n
    · subst hx
      have none : eitherLine (fun _ => false) (· == x) = (· == x) := rfl
      have none' : eitherLine (· == x) (fun _ => false) = (· == x) := funext fun z => Bool.or_false _
      obtain hs | hs := hs x <;> rw [if_pos rfl] at hs <;> rw [hs]
      · refine ⟨rfl, fun h => by simp at h, fun _ => ⟨rfl, rfl, fun i => ?_⟩⟩
        have := (Buffer.emptiedBy_emptied ((s.stores.get x).buffers.get i)).thenLeft
          (Buffer.leftBy_release x ((s.stores.get x).buffers.get i).emptied)
        rw [none] at this
        rw [Store.release_buffer, Store.emptied_buffer]; exact this
      · refine ⟨rfl, fun h => by simp at h, fun _ => ⟨rfl, rfl, fun i => ?_⟩⟩
        have := (Buffer.emptiedBy_emptied (((s.stores.get x).buffers.get i).release x)).afterLeft
          (Buffer.leftBy_release x ((s.stores.get x).buffers.get i))
        rw [none'] at this
        rw [Store.emptied_buffer, Store.release_buffer]; exact this
    · have hs : t.stores.get x = (s.stores.get x).release n := by simpa [hx] using hs x
      rw [hs]
      exact ⟨rfl, fun _ => ⟨whole _, release _⟩, fun h => absurd (beq_iff_eq.mp h) hx⟩

/-! ### Loads -/

theorem Grant.killLoad_cases (n : Line) (g : Option Grant) :
    (∀ y p live, g = some (.load y p live) → g.map (Grant.killLoad n) = some (.load y p (live && !(y == n))))
      ∧ ((∀ y p live, g ≠ some (.load y p live)) → g.map (Grant.killLoad n) = g) := by
  refine ⟨fun y p live h => by rw [h]; rfl, fun h => ?_⟩
  cases g with
  | none => rfl
  | some g => cases g with
    | load y p live => exact absurd rfl (h y p live)
    | _ => rfl

theorem LoadsBy.same {s t : State} (h : t.arb = s.arb) : LoadsBy neither [] s t := by
  refine ⟨?_, fun y p live hg => ?_, fun _ => by rw [h]⟩
  · rw [h]; simp [neither]
  · rw [h, hg]; simp [neither]

theorem LoadsBy.withdrawn {n : Line} {s t : State} (h : t.arb = s.arb.withdrawn n) : LoadsBy (· == n) [] s t := by
  obtain ⟨hload, hno⟩ := Grant.killLoad_cases n s.arb.grant
  refine ⟨?_, fun y p live hg => ?_, fun hg => ?_⟩
  · rw [h, List.append_nil]; rfl
  · rw [h]; exact hload y p live hg
  · rw [h]; exact hno hg

/-- Claims withdrawn and placed, and then others withdrawn and placed. -/
theorem LoadsBy.trans {a b : Line → Bool} {p q : List Line} {s t u : State} (h : LoadsBy a p s t) (k : LoadsBy b q t u) :
    LoadsBy (eitherLine a b) (p.filter (fun m => !b m) ++ q) s u := by
  obtain ⟨harb, hload, hno⟩ := h
  obtain ⟨karb, kload, kno⟩ := k
  refine ⟨?_, fun y pr live hg => ?_, fun hg => ?_⟩
  · rw [karb, harb]
    simp only [List.filter_append, List.filter_filter, List.append_assoc]
    congr 3
    funext m
    rw [eitherLine, Bool.not_or, Bool.and_comm]
  · rw [kload y pr _ (hload y pr live hg), eitherLine, Bool.not_or, Bool.and_assoc]
  · rw [kno (by rw [hno hg]; exact hg), hno hg]

/-! ### Records -/

/-- From `s` to `t` adoptions may be made, and nothing else is sent than the COMMIT_DONE of the last one. -/
structure CommitsOnce (s t : State) : Prop where
  noMember : (∀ n, s.bc.adoptionSet.get n = false) → t.bc = s.bc ∧ t.evq = s.evq ∧ t.irq = s.irq
  once : t.evq = s.evq ∨ (t.evq.records.length ≤ s.evq.records.length + 1 ∧ ∀ n, t.bc.adoptionSet.get n = false)

theorem appendRecord_length_le (r : EventRecord) (s : State) :
    (appendRecord r s).evq.records.length ≤ s.evq.records.length + 1 := by
  by_cases h : s.evq.records.length < 32
  · rw [appendRecord_of_room r h]; simp
  · rw [appendRecord_of_full r (by simpa [Config.eventCapacity] using h)]
    exact Nat.le_succ _

namespace CommitsOnce

theorem same {s t : State} (hb : t.bc = s.bc := by simp) (hq : t.evq = s.evq := by simp) (hi : t.irq = s.irq := by simp) :
    CommitsOnce s t := ⟨fun _ => ⟨hb, hq, hi⟩, .inl hq⟩

theorem trans {s t u : State} (h : CommitsOnce s t) (k : CommitsOnce t u) : CommitsOnce s u where
  noMember hs := by
    obtain ⟨hb, hq, hi⟩ := h.noMember hs
    obtain ⟨kb, kq, ki⟩ := k.noMember (by rw [hb]; exact hs)
    exact ⟨kb.trans hb, kq.trans hq, ki.trans hi⟩
  once := by
    obtain hq | ⟨hl, he⟩ := h.once
    · rw [← hq]; exact k.once
    · obtain ⟨kb, kq, -⟩ := k.noMember he
      exact .inr ⟨by rw [kq]; exact hl, by rw [kb]; exact he⟩

theorem adopt (n : Line) (s : State) : CommitsOnce s (adopt n s) := by
  by_cases hm : s.bc.adoptionSet.get n = true
  · refine ⟨fun h => (by rw [h] at hm; cases hm), ?_⟩
    rw [Machine.adopt, if_pos hm]; dsimp only
    split
    · next he =>
      refine .inr ⟨?_, fun m => ?_⟩
      · exact appendRecord_length_le _ _
      · rw [(completeCommit_spec _).1]; exact (isEmpty_iff _).mp he m
    · exact .inl rfl
  · rw [adopt_out (Bool.eq_false_iff.mpr hm)]; exact same rfl rfl rfl

theorem length_le {s t : State} (h : CommitsOnce s t) : t.evq.records.length ≤ s.evq.records.length + 1 := by
  obtain hq | ⟨hl, -⟩ := h.once
  · rw [hq]; omega
  · exact hl

end CommitsOnce

theorem OnlySends.trans {s t u : State} (h : OnlySends s t) (k : OnlySends t u)
    (hlen : t.evq.records.length ≤ u.evq.records.length) : OnlySends s u := by
  obtain ⟨hirq, hloss, hlatch, hroom⟩ := h
  obtain ⟨kirq, kloss, klatch, kroom⟩ := k
  refine ⟨by rw [kirq, hirq], fun hs => kloss (hloss hs), klatch.trans hlatch, fun hu => ?_⟩
  obtain ⟨hl, hlost⟩ := hroom (by omega)
  obtain ⟨kl, klost⟩ := kroom hu
  exact ⟨kl.trans hl, klost.trans hlost⟩

theorem Adopts.length_le {a : Line → Prop} {s t : State} (h : Adopts a s t) :
    s.evq.records.length ≤ t.evq.records.length := by
  obtain ⟨sent, hs, -⟩ := h.sends
  rw [hs, List.length_append]; omega

/-! ### Stops -/

/-- What the stops of the lines that `stop` names do, beside their windows and their fixed frames. -/
structure Stops (stop : Line → Bool) (s t : State) : Prop where
  drops : HoldsDropped stop s t
  loads : LoadsBy stop [] s t
  adopts : Adopts (fun n => stop n = true) s t
  sends : OnlySends s t
  quiet : ∀ n, stop n = true → QuietStore (s.stores.get n).frameCount (t.stores.get n)

namespace Stops

theorem same {s t : State} (hr : t.readers = s.readers := by simp) (hs : t.stores = s.stores := by simp)
    (ha : t.arb = s.arb := by simp) (hb : t.bc = s.bc := by simp) (hq : t.evq = s.evq := by simp)
    (hi : t.irq = s.irq := by simp) : Stops neither s t where
  drops := .same hr hs
  loads := .same ha
  adopts := (Adopts.same hb hq hi).congr fun n => by simp [neither]
  sends := (OnlySends.keptBySends s).reports.same (OnlySends.refl s) hq hi
  quiet n h := by cases h

theorem trans {a b : Line → Bool} {s t u : State} (h : Stops a s t) (k : Stops b t u)
    (hd : ∀ n, a n = true → b n = false) : Stops (eitherLine a b) s u where
  drops := h.drops.trans k.drops hd
  loads := h.loads.trans k.loads
  adopts := (h.adopts.trans k.adopts).congr fun n => eitherLine_eq_true.symm
  sends := h.sends.trans k.sends k.adopts.length_le
  quiet n hn := by
    have count := (h.drops.2 n).1
    by_cases hb : b n = true
    · rw [← count]; exact k.quiet n hb
    · have ha := (eitherLine_eq_true.mp hn).resolve_right hb
      obtain ⟨free, disc, frames⟩ := h.quiet n ha
      obtain ⟨kcount, kother, -⟩ := k.drops.2 n
      obtain ⟨kst, kbuf⟩ := kother (Bool.eq_false_iff.mpr hb)
      refine ⟨fun i => ?_, by rw [kst]; exact disc, kcount.trans frames⟩
      by_cases hl : ((t.stores.get n).buffers.get i).LastLeft b
      · rw [(kbuf i).freed hl]; exact .inl rfl
      · rw [(kbuf i).kept hl]; exact free i

theorem congr {a b : Line → Bool} {s t : State} (h : Stops a s t) (hab : ∀ n, a n = b n) : Stops b s t := by
  obtain rfl : a = b := funext hab
  exact h

theorem thenSame {a : Line → Bool} {s t u : State} (h : Stops a s t) (k : Stops neither t u) : Stops a s u :=
  (h.trans k fun _ _ => rfl).congr fun _ => Bool.or_false _

theorem stopLine (n : Line) (s : State) : Stops (· == n) s (stopLine n s) where
  drops := .stopped (fun m => by simp [Machine.stopLine, transmitStop_readers])
    fun x => .inl (by rw [Machine.stopLine, transmitStop_stores, receiveStop_stores])
  loads := .withdrawn (stopLine_arb n s)
  adopts := (Adopts.stopLine n s).congr fun m => beq_iff_eq.symm
  sends := (OnlySends.keptBySends s).stopLine n (OnlySends.refl s)
  quiet m hm := by
    obtain rfl := beq_iff_eq.mp hm
    exact (stopLine_stopped m s).store

theorem stopIfRunning (n : Line) (s : State) : Stops (fun m => m == n && s.running n) s (stopIfRunning n s) := by
  unfold Machine.stopIfRunning; split
  · next h => exact (stopLine n s).congr fun m => by simp [h]
  · next h => exact (same rfl rfl rfl rfl rfl rfl).congr fun m => by simp [neither, h]

end Stops

theorem CommitsOnce.stopIfRunning (n : Line) (s : State) : CommitsOnce s (stopIfRunning n s) := by
  have stop : CommitsOnce s (stopLine n s) :=
    ((same (t := dropHolds n (receiveStop n s))).trans (adopt n _)).trans
      (same (by simp [Machine.stopLine, transmitStop]) (by simp [Machine.stopLine, transmitStop]) (by simp [Machine.stopLine, transmitStop]))
  unfold Machine.stopIfRunning; split
  · exact stop
  · exact same rfl rfl rfl

/-! ### Several lines -/

/-- The line's own part of the state that its stop replaces: its unit, its window and its assembler. -/
def State.part (s : State) (n : Line) : LineUnit × Window × Assembler := (s.lines.get n, s.windows.get n, s.txas.get n)

/-- A command that stops each running one of the lines for which `takes` holds, and replaces their own parts. -/
theorem foldl_stops {takes : Line → LineUnit → Bool} {op : Line → State → State}
    {after : Line → LineUnit × Window × Assembler → LineUnit × Window × Assembler}
    (stops : ∀ n t, takes n (t.lines.get n) = true →
      Stops (fun m => m == n && t.running n) t (op n t) ∧ CommitsOnce t (op n t))
    (parts : ∀ n t m, takes n (t.lines.get n) = true → (op n t).part m = if m = n then after n (t.part n) else t.part m)
    (l : List Line) (hl : l.Nodup) (s : State) :
    let t := l.foldl (fun t n => if takes n (t.lines.get n) then op n t else t) s
    Stops (fun m => decide (m ∈ l) && takes m (s.lines.get m) && s.running m) s t ∧ CommitsOnce s t
      ∧ ∀ m, t.part m = if m ∈ l ∧ takes m (s.lines.get m) = true then after m (s.part m) else s.part m := by
  induction l generalizing s with
  | nil =>
    exact ⟨(Stops.same rfl rfl rfl rfl rfl rfl).congr fun m => by simp [neither], .same rfl rfl rfl, fun m => by simp⟩
  | cons n l ih =>
    obtain ⟨hn, hl⟩ := List.nodup_cons.mp hl
    simp only [List.foldl_cons]
    by_cases ht : takes n (s.lines.get n) = true
    · rw [if_pos ht]
      obtain ⟨first, once⟩ := stops n s ht
      have part := fun m => parts n s m ht
      obtain ⟨rest, onceRest, partRest⟩ := ih hl (op n s)
      have line : ∀ m, m ≠ n → (op n s).lines.get m = s.lines.get m := fun m hm => by
        have := part m
        rw [if_neg hm] at this
        exact congrArg Prod.fst this
      have running : ∀ m, m ≠ n → (op n s).running m = s.running m := fun m hm => by
        rw [State.running, line m hm]; rfl
      refine ⟨(first.trans rest fun m hm => ?_).congr fun m => ?_, once.trans onceRest, fun m => ?_⟩
      · obtain rfl := beq_iff_eq.mp (Bool.and_eq_true_iff.mp hm).1
        simp [hn]
      · by_cases hm : m = n
        · subst hm; simp [eitherLine, hn, ht]
        · simp [eitherLine, hm, line m hm, running m hm]
      · rw [partRest, part]
        by_cases hm : m = n
        · subst hm; simp [hn, ht]
        · simp [hm, line m hm]
    · rw [if_neg ht]
      obtain ⟨rest, onceRest, partRest⟩ := ih hl s
      refine ⟨rest.congr fun m => ?_, onceRest, fun m => ?_⟩
      · by_cases hm : m = n
        · subst hm; simp [ht]
        · simp [hm]
      · rw [partRest]
        by_cases hm : m = n
        · subst hm; simp [ht]
        · simp [hm]

end Sys2Proof.Machine
end

section
set_option Elab.async false -- one proof after the other, within the check's limit on threads
/-! LINE_DISABLE, LINE_RESTART and STOP: the settling of obligations O12, O16 and O17. -/

namespace Sys2Proof.Machine

/-! ### What is left of a line that has stopped -/

namespace Stops

variable {stop : Line → Bool} {s t : State} {n : Line} (h : Stops stop s t)
include h

theorem linesStopped (hw : ∀ m, stop m = true → t.windows.get m = ⟨0, 0, false⟩) : LinesStopped stop s t :=
  ⟨h.drops, h.loads, h.adopts.adoptionBy fun _ => Iff.rfl, h.sends, hw⟩

theorem readers_of_other (hn : stop n = false) : t.readers.get n = s.readers.get n := by
  rw [h.drops.1, hn]; rfl

theorem holds_nothing (hn : stop n = true) (x : Line) :
    ((t.readers.get n).get x).held = none ∧ ((t.readers.get n).get x).cursor = none := by
  rw [h.drops.1, if_pos hn, Tab.get_all]; exact ⟨rfl, rfl⟩

theorem store_empty (hn : stop n = true) :
    (∀ i, ((t.stores.get n).buffers.get i).state = .free ∨ ((t.stores.get n).buffers.get i).state = .retired)
      ∧ (t.stores.get n).discarding = false ∧ (t.stores.get n).frameCount = (s.stores.get n).frameCount := h.quiet n hn

theorem no_load (hn : stop n = true) : n ∉ t.arb.loadQueue ∧ ∀ p, t.arb.grant ≠ some (.load n p true) := by
  obtain ⟨arb, granted, other⟩ := h.loads
  refine ⟨by rw [arb]; simp [hn], fun p hg => ?_⟩
  by_cases hl : ∃ y q live, s.arb.grant = some (.load y q live)
  · obtain ⟨y, q, live, hl⟩ := hl
    rw [granted y q live hl] at hg
    simp only [Option.some_inj, Grant.load.injEq, Bool.and_eq_true, Bool.not_eq_true'] at hg
    obtain ⟨rfl, -, -, hy⟩ := hg
    rw [hn] at hy; cases hy
  · rw [other fun y q live h => hl ⟨y, q, live, h⟩] at hg
    exact hl ⟨n, p, true, hg⟩

theorem no_member (hn : stop n = true) : t.bc.adoptionSet.get n = false :=
  Bool.eq_false_iff.mpr fun hm => ((h.adopts.members n).mp hm).2 hn

end Stops

/-! ### The parts of a line -/

theorem stopIfRunning_txas (n m : Line) (s : State) : (stopIfRunning n s).txas.get m
    = if m = n ∧ s.running n = true then { s.txas.get n with fixed := none } else s.txas.get m := by
  unfold stopIfRunning
  by_cases hr : s.running n = true
  · rw [if_pos hr, stopLine, transmitStop_txas]; simp [hr]
  · rw [if_neg hr]; simp [hr]

/-- The parts of a line after it has stopped if it ran, with its unit as given. -/
def stoppedPart (unit : LineUnit) (p : LineUnit × Window × Assembler) : LineUnit × Window × Assembler :=
  (unit, if p.1.running then .reset else p.2.1, if p.1.running then { p.2.2 with fixed := none } else p.2.2)

/-- An operation that stops a line if it runs and then replaces its unit. -/
theorem part_of_stop {n : Line} {s t : State} {unit : LineUnit}
    (hl : ∀ m, t.lines.get m = if m = n then unit else s.lines.get m) (hw : t.windows = (stopIfRunning n s).windows)
    (hx : t.txas = (stopIfRunning n s).txas) (m : Line) :
    t.part m = if m = n then stoppedPart unit (s.part n) else s.part m := by
  rw [State.part, hl, hw, hx, stopIfRunning_windows, stopIfRunning_txas]
  by_cases hm : m = n
  · subst hm
    simp only [true_and, if_true, State.part, stoppedPart]; rfl
  · simp only [hm, false_and, if_false, State.part]

/-! ### LINE_DISABLE -/

theorem disableLine_stops (n : Line) (s : State) :
    Stops (fun m => m == n && s.running n) s (disableLine n s) ∧ CommitsOnce s (disableLine n s) := by
  obtain ⟨readers, stores, -, -, bc, arb, evq, irq, -⟩ := disableLine_rest n s
  exact ⟨(Stops.stopIfRunning n s).thenSame (.same readers stores arb bc evq irq),
    (CommitsOnce.stopIfRunning n s).trans (.same bc evq irq)⟩

theorem disableLine_part (n m : Line) (s : State) : (disableLine n s).part m = if m = n then
    stoppedPart { (s.lines.get n).enter .disabled with enabled := false } (s.part n) else s.part m := by
  obtain ⟨-, -, windows, txas, -⟩ := disableLine_rest n s
  exact part_of_stop (fun m => disableLine_lines n m s) windows txas m

theorem lineDisable_host (v : Word) (s : State) : (lineDisable v s).host
    = if lineBit v hostLine = false ∧ (s.lines.get hostLine).enabled = true then s.host.disabled else s.host := by
  have host : ∀ n t, (disableLine n t).host = if n = hostLine then t.host.disabled else t.host := fun n t => by
    obtain ⟨-, -, -, -, -, -, -, -, host⟩ := disableLine_rest n t
    exact host
  have same : ∀ (t : State) (m : Line), m ≠ hostLine →
      (if (!lineBit v m && (t.lines.get m).enabled) = true then disableLine m t else t).host = t.host
      ∧ (if (!lineBit v m && (t.lines.get m).enabled) = true then disableLine m t else t).lines.get hostLine
        = t.lines.get hostLine := by
    intro t m hm
    split
    · exact ⟨by rw [host, if_neg hm], by rw [disableLine_lines, if_neg hm.symm]⟩
    · exact ⟨rfl, rfl⟩
  refine foldl_allLines (P := fun t => t.host = s.host ∧ t.lines.get hostLine = s.lines.get hostLine)
    (Q := fun t => t.host = _) hostLine ⟨rfl, rfl⟩ (fun t m hm ⟨hh, hl⟩ => ?_) (fun t ⟨hh, hl⟩ => ?_) fun t m hm hh => ?_
  · exact ⟨(same t m hm).1.trans hh, (same t m hm).2.trans hl⟩
  · rw [hl]
    by_cases hc : lineBit v hostLine = false ∧ (s.lines.get hostLine).enabled = true
    · rw [if_pos (by simp [hc]), if_pos hc, host, if_pos rfl, hh]
    · rw [if_neg (by simpa using hc), if_neg hc, hh]
  · exact (same t m hm).1.trans hh

/-- Settles O16: each enabled line whose bit is 0 stops if it runs, and its unit is disabled. -/
theorem lineDisableStopsItsLines : Obligations.LineDisableStopsItsLines := by
  intro v s hs
  obtain ⟨stops, once, part⟩ := foldl_stops (takes := fun n l => !lineBit v n && l.enabled)
    (fun n t _ => disableLine_stops n t) (fun n t m _ => disableLine_part n m t)
    (after := fun n p => stoppedPart { p.1.enter .disabled with enabled := false } p) allLines allLines_nodup s
  change Stops _ s (lineDisable v s) at stops
  change CommitsOnce s (lineDisable v s) at once
  change ∀ m, (lineDisable v s).part m = _ at part
  have host := lineDisable_host v s
  have only := lineDisable_onlyChanges v s
  have step : exec (.lineDisable v) s = .next (lineDisable v s) := exec_hostAccess rfl (by simp) hs
  generalize lineDisable v s = t at *
  have enabled : ∀ n, s.running n = true → (s.lines.get n).enabled = true := fun n hr => (Bool.and_eq_true_iff.mp hr).1
  have stops : Stops (fun n => s.running n && !lineBit v n) s t := stops.congr fun n => by
    cases hr : s.running n with
    | false => simp
    | true => simp [mem_allLines, enabled n hr]
  have taken : ∀ n, lineBit v n = false → (s.lines.get n).enabled = true →
      t.part n = stoppedPart { (s.lines.get n).enter .disabled with enabled := false } (s.part n) := fun n hb he => by
    rw [part, if_pos ⟨mem_allLines n, by simp [hb, he]⟩]; rfl
  have other : ∀ n, lineBit v n = true ∨ (s.lines.get n).enabled = false → t.part n = s.part n := fun n h => by
    rw [part, if_neg]
    obtain h | h := h <;> simp [h]
  have stopped : ∀ n, (s.running n && !lineBit v n) = true → t.windows.get n = ⟨0, 0, false⟩
      ∧ t.txas.get n = { s.txas.get n with fixed := none } := fun n hn => by
    obtain ⟨hr, hb⟩ := Bool.and_eq_true_iff.mp hn
    have := taken n (by simpa using hb) (enabled n hr)
    have hr : (s.lines.get n).running = true := hr
    simp only [State.part, stoppedPart, hr, if_true, Prod.mk.injEq] at this
    exact this.2
  have kept : ∀ n, (s.running n && !lineBit v n) = false →
      t.txas.get n = s.txas.get n ∧ t.windows.get n = s.windows.get n := fun n hn => by
    by_cases hc : lineBit v n = false ∧ (s.lines.get n).enabled = true
    · have := taken n hc.1 hc.2
      have hr : s.running n = false := by rw [hc.1] at hn; simpa using hn
      have hr : (s.lines.get n).running = false := hr
      simp only [State.part, stoppedPart, hr, Bool.false_eq_true, if_false, Prod.mk.injEq] at this
      exact ⟨this.2.2, this.2.1⟩
    · have := other n (by cases hb : lineBit v n <;> simp_all)
      simp only [State.part, Prod.mk.injEq] at this
      exact ⟨this.2.2, this.2.1⟩
  refine ⟨t, step, only, fun n => ⟨fun ⟨hb, he⟩ => congrArg Prod.fst (taken n hb he), fun hn => ?_, fun ⟨hb, hr⟩ => ?_⟩, host,
    once.noMember, stops.linesStopped fun n hn => (stopped n hn).1, fun n hn => kept n hn,
    fun n hn => (stopped n hn).2, once.length_le⟩
  · have same := other n hn
    simp only [State.part, Prod.mk.injEq] at same
    refine ⟨same.1, stops.readers_of_other ?_, same.2.1⟩
    obtain hb | he := hn
    · simp [hb]
    · simp [State.running, LineUnit.running, he]
  · have hn : (s.running n && !lineBit v n) = true := by simp [hb, hr]
    obtain ⟨window, txa⟩ := stopped n hn
    obtain ⟨free, disc, frames⟩ := stops.store_empty hn
    exact ⟨stops.holds_nothing hn, free, disc, frames, (stops.no_load hn).1, stops.no_member hn, by rw [txa], window⟩

/-! ### LINE_RESTART -/

theorem restartLine_stops (n : Line) (s : State) :
    Stops (fun m => m == n && s.running n) s (restartLine n s) ∧ CommitsOnce s (restartLine n s) := by
  obtain ⟨readers, stores, -, -, bc, arb, evq, irq, -⟩ := restartLine_rest n s
  exact ⟨(Stops.stopIfRunning n s).thenSame (.same readers stores arb bc evq irq),
    (CommitsOnce.stopIfRunning n s).trans (.same bc evq irq)⟩

/-- The parts of line `n` after its restart. -/
def restartedPart (n : Line) (p : LineUnit × Window × Assembler) : LineUnit × Window × Assembler :=
  ({ p.1.enter .hunt with txCounter := 0, rxRef := none }, .reset,
    { p.2.2 with lastWords := List.replicate (Config.lineWords n) 0, fixed := if p.1.running then none else p.2.2.fixed })

theorem restartLine_part (n m : Line) (s : State) :
    (restartLine n s).part m = if m = n then restartedPart n (s.part n) else s.part m := by
  obtain ⟨-, -, windows, txas, -⟩ := restartLine_rest n s
  rw [State.part, restartLine_lines, windows, txas, Tab.get_put, Tab.get_put, stopIfRunning_windows, stopIfRunning_txas,
    stopIfRunning_txas]
  by_cases hm : m = n
  · subst hm
    have run : (s.lines.get m).running = s.running m := rfl
    simp only [true_and, if_true, State.part, restartedPart, run]
    cases s.running m <;> rfl
  · simp only [hm, false_and, if_false, State.part]

theorem lineRestart_host (v : Word) (s : State) : (lineRestart v s).host
    = if lineBit v hostLine = true ∧ (s.lines.get hostLine).enabled = true then s.host.clearInsert else s.host := by
  have host : ∀ n t, (restartLine n t).host = if n = hostLine then t.host.clearInsert else t.host := fun n t => by
    obtain ⟨-, -, -, -, -, -, -, -, host⟩ := restartLine_rest n t
    exact host
  have same : ∀ (t : State) (m : Line), m ≠ hostLine →
      (if (lineBit v m && (t.lines.get m).enabled) = true then restartLine m t else t).host = t.host
      ∧ (if (lineBit v m && (t.lines.get m).enabled) = true then restartLine m t else t).lines.get hostLine
        = t.lines.get hostLine := by
    intro t m hm
    split
    · exact ⟨by rw [host, if_neg hm], by rw [restartLine_lines, if_neg hm.symm]⟩
    · exact ⟨rfl, rfl⟩
  refine foldl_allLines (P := fun t => t.host = s.host ∧ t.lines.get hostLine = s.lines.get hostLine)
    (Q := fun t => t.host = _) hostLine ⟨rfl, rfl⟩ (fun t m hm ⟨hh, hl⟩ => ?_) (fun t ⟨hh, hl⟩ => ?_) fun t m hm hh => ?_
  · exact ⟨(same t m hm).1.trans hh, (same t m hm).2.trans hl⟩
  · rw [hl]
    by_cases hc : lineBit v hostLine = true ∧ (s.lines.get hostLine).enabled = true
    · rw [if_pos (by simp [hc]), if_pos hc, host, if_pos rfl, hh]
    · rw [if_neg (by simpa using hc), if_neg hc, hh]
  · exact (same t m hm).1.trans hh

/-- Settles O17: each enabled line whose bit is 1 stops if it runs, and its parts start afresh. -/
theorem lineRestartRehuntsItsLines : Obligations.LineRestartRehuntsItsLines := by
  intro v s hs
  obtain ⟨stops, once, part⟩ := foldl_stops (takes := fun n l => lineBit v n && l.enabled)
    (fun n t _ => restartLine_stops n t) (fun n t m _ => restartLine_part n m t) allLines allLines_nodup s
  change Stops _ s (lineRestart v s) at stops
  change CommitsOnce s (lineRestart v s) at once
  change ∀ m, (lineRestart v s).part m = _ at part
  have host := lineRestart_host v s
  have only := lineRestart_onlyChanges v s
  have step : exec (.lineRestart v) s = .next (lineRestart v s) := exec_hostAccess rfl (by simp) hs
  generalize lineRestart v s = t at *
  have enabled : ∀ n, s.running n = true → (s.lines.get n).enabled = true := fun n hr => (Bool.and_eq_true_iff.mp hr).1
  have stops : Stops (fun n => s.running n && lineBit v n) s t := stops.congr fun n => by
    cases hr : s.running n with
    | false => simp
    | true => simp [mem_allLines, enabled n hr]
  have taken : ∀ n, lineBit v n = true → (s.lines.get n).enabled = true → t.part n = restartedPart n (s.part n) :=
    fun n hb he => by rw [part, if_pos ⟨mem_allLines n, by simp [hb, he]⟩]
  have other : ∀ n, lineBit v n = false ∨ (s.lines.get n).enabled = false → t.part n = s.part n := fun n h => by
    rw [part, if_neg]
    obtain h | h := h <;> simp [h]
  have unit : ∀ n, lineBit v n = true → (s.lines.get n).enabled = true → t.lines.get n = (restartedPart n (s.part n)).1
      ∧ t.windows.get n = .reset ∧ t.txas.get n = (restartedPart n (s.part n)).2.2 := fun n hb he => by
    rw [← taken n hb he]
    exact ⟨rfl, congrArg (fun p => p.2.1) (taken n hb he), rfl⟩
  refine ⟨t, step, only, fun n => ⟨fun ⟨hb, he⟩ => ?_, fun hn => ?_, fun ⟨hb, hr⟩ => ?_⟩, host,
    once.noMember, stops.linesStopped fun n hn => ?_, fun n hb he => ?_, once.length_le⟩
  · obtain ⟨line, window, txa⟩ := unit n hb he
    exact ⟨line, window, by rw [txa]; rfl, by rw [txa]; rfl⟩
  · have same := other n hn
    simp only [State.part, Prod.mk.injEq] at same
    refine ⟨same.1, stops.readers_of_other ?_, same.2.1, same.2.2⟩
    obtain hb | he := hn
    · simp [hb]
    · simp [State.running, LineUnit.running, he]
  · have hn : (s.running n && lineBit v n) = true := by simp [hb, hr]
    obtain ⟨-, -, txa⟩ := unit n hb (enabled n hr)
    have run : (s.lines.get n).running = true := hr
    obtain ⟨free, disc, frames⟩ := stops.store_empty hn
    exact ⟨stops.holds_nothing hn, free, disc, frames, (stops.no_load hn).1, stops.no_member hn,
      by rw [txa]; simp [restartedPart, State.part, run]⟩
  · obtain ⟨hr, hb⟩ := Bool.and_eq_true_iff.mp hn
    obtain ⟨-, window, -⟩ := unit n hb (enabled n hr)
    exact window
  · obtain ⟨-, -, txa⟩ := unit n hb he
    rw [txa]; rfl

/-! ### STOP -/

theorem haltLine_stops (n : Line) (s : State) :
    Stops (fun m => m == n && s.running n) s (haltLine n s) ∧ CommitsOnce s (haltLine n s) := by
  obtain ⟨readers, -, -, stores, bc, evq, irq⟩ := haltLine_rest n s
  exact ⟨(Stops.stopIfRunning n s).thenSame (.same readers stores (haltLine_arb n s) bc evq irq),
    (CommitsOnce.stopIfRunning n s).trans (.same bc evq irq)⟩

theorem haltLine_part (n m : Line) (s : State) : (haltLine n s).part m = if m = n then
    stoppedPart ((s.lines.get n).enter .hunt) (s.part n) else s.part m := by
  obtain ⟨-, windows, txas, -⟩ := haltLine_rest n s
  exact part_of_stop (fun m => haltLine_lines n m s) windows txas m

/-- The line is an enabled one that generator `g` times. -/
def LineUnit.follows (g : Fin 2) (l : LineUnit) : Bool := l.enabled && l.config.timing == .fg g

/-- The generator is given STOP while it runs. -/
def State.stops (s : State) (v : Word) (g : Fin 2) : Bool := fgCode v g == 2 && (s.gens.get g).running

theorem State.stops_iff (s : State) (v : Word) (g : Fin 2) :
    s.stops v g = true ↔ fgCode v g = 2 ∧ (s.gens.get g).running = true := by
  rw [State.stops, Bool.and_eq_true, beq_iff_eq]

/-- The generator no longer runs. -/
def stopped (g : Fin 2) (s : State) : State := s.withGens (s.gens.put g { s.gens.get g with running := false })

theorem stopGenerator_gens (g : Fin 2) (s : State) : (stopGenerator g s).gens = (stopped g s).gens := by
  refine foldl_keeps (fun t => t.gens) _ (fun t n => ?_) _ _
  split <;> simp

theorem stopIfCoded_of_stops {v : Word} {g : Fin 2} {s : State} (h : s.stops v g = true) :
    stopIfCoded v g s = stopGenerator g s := if_pos ((s.stops_iff v g).mp h)

theorem stopIfCoded_of_not {v : Word} {g : Fin 2} {s : State} (h : s.stops v g = false) : stopIfCoded v g s = s :=
  if_neg fun hc => by rw [(s.stops_iff v g).mpr hc] at h; cases h

/-- STOP to one generator: the enabled lines that it times stop if they run, and their receivers are in HUNT. -/
theorem stopIfCoded_spec (v : Word) (g : Fin 2) (s : State) :
    Stops (fun n => s.stops v g && (s.lines.get n).follows g && s.running n) s (stopIfCoded v g s)
    ∧ CommitsOnce s (stopIfCoded v g s)
    ∧ (∀ n, (stopIfCoded v g s).part n = if (s.stops v g && (s.lines.get n).follows g) = true then
        stoppedPart ((s.lines.get n).enter .hunt) (s.part n) else s.part n)
    ∧ ∀ k, (stopIfCoded v g s).gens.get k
        = if k = g ∧ fgCode v g = 2 then { s.gens.get g with running := false } else s.gens.get k := by
  cases hc : s.stops v g with
  | true =>
    rw [stopIfCoded_of_stops hc]
    obtain ⟨stops, once, part⟩ := foldl_stops (takes := fun _ l => l.follows g) (fun n t _ => haltLine_stops n t)
      (fun n t m _ => haltLine_part n m t) (after := fun n p => stoppedPart (p.1.enter .hunt) p) allLines allLines_nodup
      (stopped g s)
    change Stops _ _ (stopGenerator g s) at stops
    change CommitsOnce _ (stopGenerator g s) at once
    change ∀ m, (stopGenerator g s).part m = _ at part
    refine ⟨?_, (CommitsOnce.same (s := s) (t := stopped g s) rfl rfl rfl).trans once, fun n => ?_, fun k => ?_⟩
    · refine ((Stops.same (s := s) (t := stopped g s) rfl rfl rfl rfl rfl rfl).trans stops fun m hm => (by cases hm)).congr fun n => ?_
      simp only [eitherLine, neither, mem_allLines, decide_true, Bool.true_and, Bool.false_or]; rfl
    · rw [part]
      simp only [mem_allLines, true_and, Bool.true_and]; rfl
    · rw [stopGenerator_gens, stopped, State.withGens_gens, Tab.get_put]
      by_cases hk : k = g <;> simp [hk, ((s.stops_iff v g).mp hc).1]
  | false =>
    rw [stopIfCoded_of_not hc]
    refine ⟨(Stops.same rfl rfl rfl rfl rfl rfl).congr fun n => by simp [neither], .same rfl rfl rfl,
      fun n => by simp, fun k => ?_⟩
    split
    · next h =>
      obtain ⟨rfl, hk⟩ := h
      have : (s.gens.get k).running = false := by simpa [State.stops, hk] using hc
      rw [← this]
    · rfl

/-- The line is an enabled one of a generator that is given STOP. -/
def State.halts (s : State) (v : Word) (n : Line) : Bool :=
  (s.stops v 0 && (s.lines.get n).follows 0) || (s.stops v 1 && (s.lines.get n).follows 1)

theorem State.halts_iff (s : State) (v : Word) (n : Line) : s.halts v n = true ↔ ∃ g, fgCode v g = 2
    ∧ (s.gens.get g).running = true ∧ (s.lines.get n).enabled = true ∧ (s.lines.get n).config.timing = .fg g := by
  simp only [State.halts, LineUnit.follows, Bool.or_eq_true, Bool.and_eq_true, State.stops_iff, beq_iff_eq, Fin.exists_fin_two,
    and_assoc]

/-- A line has one timing source. -/
theorem LineUnit.follows_one {l : LineUnit} (h : l.follows 0 = true) : l.follows 1 = false := by
  simp only [LineUnit.follows, Bool.and_eq_true, beq_iff_eq] at h
  simp [LineUnit.follows, h]

/-- The two generators time different lines, and each stops its own. -/
theorem fgStop_spec (v : Word) (s : State) :
    Stops (fun n => s.halts v n && s.running n) s (fgStop v s) ∧ CommitsOnce s (fgStop v s)
    ∧ (∀ n, (fgStop v s).part n = if s.halts v n = true then stoppedPart ((s.lines.get n).enter .hunt) (s.part n) else s.part n)
    ∧ ∀ g, (fgStop v s).gens.get g = if fgCode v g = 2 then { s.gens.get g with running := false } else s.gens.get g := by
  obtain ⟨first, once, part, gens⟩ := stopIfCoded_spec v 0 s
  obtain ⟨second, once', part', gens'⟩ := stopIfCoded_spec v 1 (stopIfCoded v 0 s)
  change Stops _ _ (fgStop v s) at second
  change CommitsOnce _ (fgStop v s) at once'
  change ∀ n, (fgStop v s).part n = _ at part'
  change ∀ n, (fgStop v s).gens.get n = _ at gens'
  generalize fgStop v s = t at *
  generalize stopIfCoded v 0 s = u at *
  have stops : u.stops v 1 = s.stops v 1 := by simp [State.stops, gens]
  have follows : ∀ n, (u.lines.get n).follows 1 = (s.lines.get n).follows 1 := fun n => by
    have line : u.lines.get n = (u.part n).1 := rfl
    rw [line, part]
    split <;> rfl
  have same : ∀ n, (s.lines.get n).follows 1 = true → u.part n = s.part n := fun n h => by
    rw [part, if_neg]
    intro hc
    have := LineUnit.follows_one (Bool.and_eq_true_iff.mp hc).2
    rw [this] at h; cases h
  have running : ∀ n, (s.lines.get n).follows 1 = true → u.running n = s.running n := fun n h => by
    have line : u.lines.get n = s.lines.get n := congrArg Prod.fst (same n h)
    rw [State.running, line]; rfl
  refine ⟨(first.trans second fun n hn => ?_).congr fun n => ?_, once.trans once', fun n => ?_, fun g => ?_⟩
  · have := LineUnit.follows_one (Bool.and_eq_true_iff.mp (Bool.and_eq_true_iff.mp hn).1).2
    rw [follows, this, Bool.and_false, Bool.false_and]
  · simp only [eitherLine, stops, follows, State.halts]
    cases h1 : (s.lines.get n).follows 1 with
    | false => simp
    | true => rw [running n h1, ← Bool.and_or_distrib_right, Bool.and_true]
  · rw [part', stops, follows]
    cases h1 : (s.lines.get n).follows 1 with
    | false => rw [part]; simp [State.halts, h1]
    | true =>
      have h0 : (s.lines.get n).follows 0 = false := Bool.eq_false_iff.mpr fun h => by
        rw [LineUnit.follows_one h] at h1; cases h1
      have line : u.lines.get n = s.lines.get n := congrArg Prod.fst (same n h1)
      rw [same n h1, line]; simp [State.halts, h0, h1]
  · rw [gens', gens, gens]
    obtain rfl | rfl : g = 0 ∨ g = 1 := by omega
    · simp
    · simp

/-- Settles O12. -/
theorem generatorStopHaltsItsLines : Obligations.GeneratorStopHaltsItsLines := by
  intro v s hs
  obtain ⟨stops, once, part, gens⟩ := fgStop_spec v s
  have only := fgStop_onlyChanges v s
  have step : exec (.fgStop v) s = .next (fgStop v s) := exec_hostAccess rfl (by simp) hs
  generalize fgStop v s = t at *
  have enabled : ∀ n, s.running n = true → (s.lines.get n).enabled = true := fun n hr => (Bool.and_eq_true_iff.mp hr).1
  have windows : ∀ n, t.windows.get n = if (s.halts v n && s.running n) = true then .reset else s.windows.get n := fun n => by
    have window : t.windows.get n = (t.part n).2.1 := rfl
    have run : (s.lines.get n).running = s.running n := rfl
    rw [window, part]
    cases s.halts v n <;> simp [stoppedPart, State.part, run]
  have txas : ∀ n, t.txas.get n
      = if (s.halts v n && s.running n) = true then { s.txas.get n with fixed := none } else s.txas.get n := fun n => by
    have txa : t.txas.get n = (t.part n).2.2 := rfl
    have run : (s.lines.get n).running = s.running n := rfl
    rw [txa, part]
    cases s.halts v n <;> simp [stoppedPart, State.part, run]
  have stopSet : ∀ n, (s.halts v n && s.running n) = (s.running n && decide (∃ g, fgCode v g = 2
      ∧ (s.gens.get g).running = true ∧ (s.lines.get n).config.timing = .fg g)) := fun n => by
    cases hr : s.running n with
    | false => simp
    | true =>
      rw [Bool.eq_iff_iff, Bool.and_true, s.halts_iff, Bool.true_and, decide_eq_true_eq]
      simp [enabled n hr]
  refine ⟨t, step, only, gens, fun n => ⟨fun hn => ?_, fun hn => ?_⟩, once.noMember, ⟨?_, fun n => ⟨?_, fun hn => ?_⟩⟩,
    once.length_le⟩
  · have halts := (s.halts_iff v n).mpr hn
    have line : t.lines.get n = (s.lines.get n).enter .hunt := by
      have := part n
      rw [if_pos halts] at this
      exact congrArg Prod.fst this
    refine ⟨not_running_of_hunt (by rw [line]; rfl), line, fun hr => ?_⟩
    have hstop : (s.halts v n && s.running n) = true := by rw [halts, hr]; rfl
    obtain ⟨free, disc, frames⟩ := stops.store_empty hstop
    obtain ⟨queue, grant⟩ := stops.no_load hstop
    exact ⟨stops.holds_nothing hstop, free, disc, frames, queue, grant, stops.no_member hstop,
      by rw [txas, if_pos hstop], by rw [windows, if_pos hstop]; rfl⟩
  · have hno : s.halts v n = false := Bool.eq_false_iff.mpr fun h => hn ((s.halts_iff v n).mp h)
    have same := part n
    rw [hno, if_neg Bool.false_ne_true] at same
    simp only [State.part, Prod.mk.injEq] at same
    exact ⟨same.1, stops.readers_of_other (by rw [hno]; rfl), same.2.1⟩
  · refine (stops.congr stopSet).linesStopped fun n hn => ?_
    rw [windows, stopSet, if_pos hn]; rfl
  · rw [txas, stopSet]
  · rw [windows, stopSet, if_neg (Bool.eq_false_iff.mp hn)]

end Sys2Proof.Machine
end

section
set_option Elab.async false -- one proof after the other, within the check's limit on threads
/-! The frames that end (R114, R121, R122), and what the bit clocks before an event leave for its changes (R42, log 4). -/

namespace Sys2Proof.Machine

/-! ### Frames that end -/

namespace FramesEnded

/-- Flags alone change. -/
theorem flags {s t : State} (h : ∀ m, t.txas.get m = { s.txas.get m with
    suspended := (t.txas.get m).suspended, spanSuspended := (t.txas.get m).spanSuspended }) : FramesEnded neither s t := fun m => by
  rw [if_neg (by simp [neither])]; exact h m

theorem same {s t : State} (h : t.txas = s.txas := by simp) : FramesEnded neither s t := flags fun m => by rw [h]

theorem trans {a b : Line → Bool} {s t u : State} (h : FramesEnded a s t) (k : FramesEnded b t u) :
    FramesEnded (eitherLine a b) s u := fun m => by
  rw [k m, h m]
  by_cases ha : a m = true <;> by_cases hb : b m = true <;> simp [eitherLine, ha, hb]

theorem congr {a b : Line → Bool} {s t : State} (h : FramesEnded a s t) (hab : ∀ n, a n = b n) : FramesEnded b s t := by
  obtain rfl : a = b := funext hab
  exact h

theorem thenNone {a : Line → Bool} {s t u : State} (h : FramesEnded a s t) (k : FramesEnded neither t u) : FramesEnded a s u :=
  (h.trans k).congr fun _ => Bool.or_false _

theorem afterNone {a : Line → Bool} {s t u : State} (h : FramesEnded neither s t) (k : FramesEnded a t u) : FramesEnded a s u :=
  (h.trans k).congr fun _ => Bool.false_or _

theorem fold {α : Type} {f : State → α → State} (step : ∀ t x, FramesEnded neither t (f t x)) (l : List α) (s : State) :
    FramesEnded neither s (l.foldl f s) :=
  foldl_invariant (fun t => FramesEnded neither s t) f (fun t x h => h.thenNone (step t x)) l s (same rfl)

/-- The frame of one line ends. -/
theorem one {n : Line} {s t : State} (h : ∀ m, t.txas.get m = if m = n then { s.txas.get n with
    fixed := none, suspended := (t.txas.get n).suspended, spanSuspended := (t.txas.get n).spanSuspended } else s.txas.get m) :
    FramesEnded (· == n) s t := fun m => by
  rw [h]
  by_cases hm : m = n
  · subst hm; simp
  · simp [hm]

/-! #### The operations -/

theorem addCause (n : Line) (c : Cause) (s : State) : FramesEnded neither s (addCause n c s) := flags fun m => by
  rw [FlagsAfter.addCause_txas]; split
  · next h => rw [h.1]
  · rfl

theorem giveGroup (g : Line → Bool) (s : State) : FramesEnded neither s (giveGroup g s) :=
  fold (fun t m => by
    split
    · exact addCause m .group t
    · exact same rfl) _ s

theorem addOwnCause (n : Line) (c : Cause) (s : State) : FramesEnded neither s (addOwnCause n c s) := by
  unfold Machine.addOwnCause; split
  · exact same rfl
  split
  · exact (addCause n c s).thenNone (giveGroup _ _)
  · exact addCause n c s

theorem reportLost (n : Line) (s : State) : FramesEnded neither s (reportLost n s) :=
  (same (t := sendEvent .sync n 4 s)).thenNone (addOwnCause n .lost _)

theorem transmitStop (n : Line) (s : State) : FramesEnded (· == n) s (transmitStop n s) :=
  one fun m => by
    rw [transmitStop_txas, transmitStop_txas, if_pos rfl]

theorem enterLost (n : Line) (tx : Bool) (s : State) : FramesEnded (· == n) s (enterLost n tx s) := by
  have entered : FramesEnded neither s (enterReceiver n .lost (countUp n SYNC_LOSSES s)) := same
  unfold Machine.enterLost; dsimp only; split
  · exact ((entered.afterNone (transmitStop n _)).thenNone (reportLost n _)).thenNone same
  · exact ((entered.thenNone (reportLost n _)).thenNone (same (t := receiveStop n _))).afterNone (transmitStop n _)

theorem advanceWindow (n : Line) (d : Bool) (s : State) : FramesEnded neither s (advanceWindow n d s) := by
  unfold Machine.advanceWindow; dsimp only; split
  · exact (same (t := s.withWindows _)).thenNone (addOwnCause n .degraded _)
  · exact same

theorem receiveBoundary (n : Line) (frame : List Word) (short : Bool) (s : State) :
    FramesEnded neither s (receiveBoundary n frame short s) := by
  unfold Machine.receiveBoundary; split
  · refine thenNone ?_ (advanceWindow n _ _)
    exact same
  · exact same

theorem testSuspension (n : Line) (s : State) : FramesEnded neither s (testSuspension n s) := flags fun m => by
  unfold Machine.testSuspension; dsimp only; split
  · rw [State.withTxas_txas, Tab.get_put]; split
    · next h => rw [h]
    · rfl
  · rfl

/-- The transmit side of a physical line ends its frame at a boundary; that of the host line waits for its delivery. -/
theorem transmitBoundary (n : Line) (s : State) :
    FramesEnded (fun m => m == n && n != hostLine) s (transmitBoundary n s) := by
  have adopted : FramesEnded neither s (adopt n (releaseHolds n s)) := same
  have ended : ∀ t, FramesEnded (fun m => m == n && n != hostLine) t (endFrame n t) := fun t => by
    by_cases hn : n = hostLine
    · exact (same (t := endFrame n t) (by simp [endFrame, hn])).congr fun m => by simp [neither, hn]
    · refine (one (n := n) fun m => ?_).congr fun m => by simp [hn]
      rw [FlagsAfter.endFrame_txas, FlagsAfter.endFrame_txas]; simp [hn]
  exact (((adopted.thenNone (testSuspension n _)).afterNone (ended _))).thenNone (same (t := placeLoad n _))

theorem deliverCapture (s : State) : FramesEnded (· == hostLine) s (deliverCapture s) :=
  one fun m => by
    rw [deliverCapture_txas, deliverCapture_txas, if_pos rfl]

theorem hostBoundary (s : State) : FramesEnded (· == hostLine) s (hostBoundary s) :=
  (same (handOver_txas s)).afterNone (deliverCapture _)

end FramesEnded

/-! ### The bit clocks before an event -/

/-- From `s` to `t` bits of the lines that `taken` names were sampled: words of their FILLING buffers may differ, and the received
bits. -/
structure BitsTaken (taken : Line → Bool) (s t : State) : Prop where
  only : OnlyChanges [.stores, .received] s t
  frames : ∀ x, (s.stores.get x).SameFrames (t.stores.get x)
  other : ∀ x, taken x = false → t.stores.get x = s.stores.get x
  words : ∀ x i, ((s.stores.get x).buffers.get i).state ≠ .filling →
    (t.stores.get x).buffers.get i = (s.stores.get x).buffers.get i

namespace BitsTaken

variable {taken : Line → Bool} {s t : State}

theorem refl (taken : Line → Bool) (s : State) : BitsTaken taken s s :=
  ⟨.refl _ _, fun _ => .refl _, fun _ _ => rfl, fun _ _ _ => rfl⟩

theorem bitClock (h : BitsTaken taken s t) {n : Line} (hn : taken n = true) (b : Bool) :
    BitsTaken taken s (bitClock n b t) := by
  have same := fun x => bitClock_same n x b t
  have stores := fun x => bitClock_stores n x b t
  refine ⟨h.only.trans (bitClock_onlyChanges n b t) (List.Subset.refl _), fun x => (h.frames x).trans (same x),
    fun x hx => ?_, fun x i hi => ?_⟩
  · rw [stores, if_neg, h.other x hx]
    rintro ⟨rfl, -⟩
    rw [hn] at hx; cases hx
  · have idle : (t.stores.get x).filling ≠ some i := fun hf => by
      have := Store.state_of_filling hf
      rw [(h.frames x).state] at this
      exact hi this
    rw [← h.words x i hi, (same x).buffer i, stores]
    split
    · next hx =>
      obtain ⟨rfl, -⟩ := hx
      split
      · rw [Store.writeWord_words, if_neg idle]
      · rfl
    · rfl

theorem bitClocks (h : BitsTaken taken s t) {n : Line} (hn : taken n = true) (bits : List Bool) :
    BitsTaken taken s (bitClocks n bits t) :=
  foldl_invariant (BitsTaken taken s) _ (fun _ b ht => ht.bitClock hn b) _ _ h

theorem frameBitClocks (g : Fin 2) (samples : Tab (List Bool) 8) (s : State) :
    BitsTaken (s.timedBy g) s (frameBitClocks g samples s) := by
  refine foldl_invariant (BitsTaken (s.timedBy g) s) _ (fun t n ht => ?_) _ _ (refl _ s)
  split
  · split
    · next hn => exact ht.bitClocks hn _
    · exact ht
  · exact ht

/-- A part of the state that bit clocks do not bear on. -/
theorem same (h : BitsTaken taken s t) (f : Field) (hf : f ∉ [Field.stores, .received] := by decide) : f.same s t :=
  h.only f hf

/-! #### Changes after the bit clocks -/

theorem emptiedBy (h : BitsTaken taken s t) {a : Line → Bool} {x : Line} {i : Fin 4} {c : Buffer}
    (k : ((t.stores.get x).buffers.get i).EmptiedBy a c) : ((s.stores.get x).buffers.get i).EmptiedBy a c := by
  by_cases hf : ((s.stores.get x).buffers.get i).state = .filling
  · obtain ⟨-, -, -, ends⟩ := k
    refine ⟨fun hn => absurd hf hn, fun hn => ?_, fun hn => ?_, fun _ => ends (.inl ?_)⟩
    · rw [hf] at hn; cases hn
    · rw [hf] at hn; simp at hn
    · rw [(h.frames x).state]; exact hf
  · rw [h.words x i hf] at k; exact k

theorem holdsDropped (h : BitsTaken taken s t) {a : Line → Bool} {u : State} (k : HoldsDropped a t u)
    (ha : ∀ x, a x = false → taken x = false) : HoldsDropped a s u := by
  obtain ⟨kr, ks⟩ := k
  have readers : t.readers = s.readers := h.same .readers
  refine ⟨fun y => by rw [kr, readers], fun x => ?_⟩
  obtain ⟨count, other, own⟩ := ks x
  refine ⟨count.trans (h.frames x).frameCount, fun hx => ?_, fun hx => ?_⟩
  · obtain ⟨st, buf⟩ := other hx
    rw [h.other x (ha x hx)] at st buf
    exact ⟨st, buf⟩
  · obtain ⟨disc, run, buf⟩ := own hx
    exact ⟨disc, run, fun i => h.emptiedBy (buf i)⟩

theorem adopts (h : BitsTaken taken s t) : Adopts noLine s t := .same (h.same .bc) (h.same .evq) (h.same .irq)

theorem flags (h : BitsTaken taken s t) : FlagsAfter noLine noLine s t := by
  have lines : t.lines = s.lines := h.same .lines
  have txas : t.txas = s.txas := h.same .txas
  exact .same (h.same .causes) (h.same .policies) (fun m => by rw [lines]) fun m => by rw [txas]; exact ⟨rfl, rfl⟩

theorem framesEnded (h : BitsTaken taken s t) : FramesEnded neither s t := .same (h.same .txas)

theorem loads (h : BitsTaken taken s t) : LoadsBy neither [] s t := .same (h.same .arb)

theorem stops (h : BitsTaken taken s t) {a : Line → Bool} {u : State} (k : Stops a t u)
    (ha : ∀ x, a x = false → taken x = false) : Stops a s u where
  drops := h.holdsDropped k.drops ha
  loads := by
    have := h.loads.trans k.loads
    rwa [show eitherLine neither a = a from funext fun _ => Bool.false_or _] at this
  adopts := h.adopts.afterNone k.adopts
  sends := ((OnlySends.keptBySends s).reports.same (OnlySends.refl s) (h.same .evq) (h.same .irq)).trans k.sends k.adopts.length_le
  quiet n hn := by rw [← (h.frames n).frameCount]; exact k.quiet n hn

end BitsTaken

end Sys2Proof.Machine
end

section
set_option Elab.async false -- one proof after the other, within the check's limit on threads
/-! The loss of sync (R12, R16, R18, R19): the settling of obligation O21. -/

namespace Sys2Proof.Machine

/-! ### One event whose records are taken in turn -/

/-- The state at which an event of the lines' timing begins: its records are gathered on an empty list. -/
def gathering (s : State) : State := s.withEvq { s.evq with records := [] }

theorem inTurn_congr {turns : List Nat} {f g : State → State} {s : State} (h : f (gathering s) = g (gathering s)) :
    inTurn turns f s = inTurn turns g s := by
  unfold gathering at h
  simp only [inTurn, h]

theorem HoldsDropped.congr {a : Line → Bool} {s t s' t' : State} (h : HoldsDropped a s t) (hr : s'.readers = s.readers)
    (hs : s'.stores = s.stores) (kr : t'.readers = t.readers) (ks : t'.stores = t.stores) : HoldsDropped a s' t' := by
  unfold HoldsDropped; rw [hr, hs, kr, ks]; exact h

theorem LoadsBy.congr {a : Line → Bool} {p : List Line} {s t s' t' : State} (h : LoadsBy a p s t) (ha : s'.arb = s.arb)
    (ka : t'.arb = t.arb) : LoadsBy a p s' t' := by
  unfold LoadsBy; rw [ha, ka]; exact h

theorem FramesEnded.inTurn {a : Line → Bool} {turns : List Nat} {f : State → State} {s : State}
    (h : FramesEnded a (gathering s) (f (gathering s))) : FramesEnded a s (inTurn turns f s) := by
  have txas : (Machine.inTurn turns f s).txas = (f (gathering s)).txas := by simp [gathering]
  intro m; rw [txas]; exact h m

theorem FlagsAfter.inTurn {a b : Line → Prop} {turns : List Nat} {f : State → State} {s : State}
    (h : FlagsAfter a b (gathering s) (f (gathering s))) : FlagsAfter a b s (inTurn turns f s) := by
  have ends : FlagsAfter noLine noLine (f (gathering s)) (Machine.inTurn turns f s) :=
    same (by simp [gathering]) (by simp [gathering]) (by simp [gathering]) (by simp [gathering])
  exact (same (s := s) (t := gathering s) rfl rfl (fun _ => rfl) fun _ => ⟨rfl, rfl⟩).afterNone (h.thenNone ends)

theorem Stops.inTurn {a : Line → Bool} {turns : List Nat} {f : State → State} {s : State}
    (h : Stops a (gathering s) (f (gathering s))) : Stops a s (inTurn turns f s) where
  drops := h.drops.congr rfl rfl (by simp [gathering]) (by simp [gathering])
  loads := h.loads.congr rfl (by simp [gathering])
  adopts := h.adopts.inTurn
  sends := h.sends.inTurn
  quiet n hn := by
    have stores : (Machine.inTurn turns f s).stores = (f (gathering s)).stores := by simp [gathering]
    rw [stores]; exact h.quiet n hn

/-! ### The loss -/

/-- A sync error and the loss of sync (R18). -/
def loseSync (n : Line) (tx : Bool) (s : State) : State := enterLost n tx (countUp n SYNC_ERRORS s)

theorem expire_of_locked {n : Line} {s : State} (h : (s.lines.get n).receiver = .locked) (tx : Bool) :
    expire n tx s = loseSync n tx s := by
  simp only [expire, h]; rfl

theorem Stops.enterLost (n : Line) (tx : Bool) (s : State) : Stops (· == n) s (enterLost n tx s) where
  drops := by
    refine .stopped (fun m => ?_) fun x => ?_
    · by_cases hm : m = n
      · subst hm; rw [if_pos rfl]; exact (enterLost_stopped m tx s).readers
      · obtain ⟨-, -, readers, -⟩ := enterLost_rest n m tx s
        rw [if_neg hm, readers hm]
    · unfold Machine.enterLost; dsimp only; split
      · refine .inr ?_
        rw [receiveStop_stores]
        simp only [reportLost_frame, transmitStop_stores, enterReceiver_frame, countUp_frame]
      · refine .inl ?_
        rw [transmitStop_stores, receiveStop_stores]
        simp only [reportLost_frame, enterReceiver_frame, countUp_frame]
  loads := .withdrawn (enterLost_arb n tx s)
  adopts := (Adopts.enterLost n tx s).congr fun m => beq_iff_eq.symm
  sends := (OnlySends.keptBySends s).enterLost n tx (OnlySends.refl s)
  quiet m hm := by
    obtain rfl := beq_iff_eq.mp hm
    exact (enterLost_stopped m tx s).store

theorem Stops.loseSync (n : Line) (tx : Bool) (s : State) : Stops (· == n) s (loseSync n tx s) :=
  ((same (t := countUp n SYNC_ERRORS s)).trans (enterLost n tx _) fun _ h => (by cases h)).congr fun _ => Bool.false_or _

theorem FramesEnded.loseSync (n : Line) (tx : Bool) (s : State) : FramesEnded (· == n) s (loseSync n tx s) :=
  (same (t := countUp n SYNC_ERRORS s)).afterNone (enterLost n tx _)

theorem FlagsAfter.loseSync (n : Line) (tx : Bool) (s : State) : FlagsAfter noLine noLine s (loseSync n tx s) :=
  (same (t := countUp n SYNC_ERRORS s)).thenNone (enterLost n tx _)

theorem loseSync_lines (n m : Line) (tx : Bool) (s : State) :
    (loseSync n tx s).lines.get m = if m = n then (s.lines.get n).enter .lost else s.lines.get m := by
  obtain ⟨lines, -⟩ := enterLost_rest n m tx (countUp n SYNC_ERRORS s)
  exact lines

theorem loseSync_counter (n m : Line) (k : Fin 8) (tx : Bool) (s : State) : (loseSync n tx s).counter m k
    = if m = n ∧ (k = SYNC_ERRORS ∨ k = SYNC_LOSSES) then satInc (s.counter m k) else s.counter m k := by
  obtain ⟨-, counter, -⟩ := enterLost_rest n m tx (countUp n SYNC_ERRORS s)
  rw [loseSync, counter, countUp_counter, countUp_counter]
  by_cases hm : m = n
  · subst hm
    by_cases he : k = SYNC_ERRORS
    · subst he; simp [SYNC_ERRORS, SYNC_LOSSES]
    · by_cases hl : k = SYNC_LOSSES
      · subst hl; simp [SYNC_ERRORS, SYNC_LOSSES]
      · simp [he, hl]
  · simp [hm]

theorem loseSync_causes (n m : Line) (tx : Bool) (s : State) :
    (loseSync n tx s).causes.get m = (addOwnCause n .lost s).causes.get m := by
  rw [loseSync, enterLost_causes]
  exact addOwnCause_causes_congr (by simp) (by simp) (by simp) ..

theorem loseSync_windows (n m : Line) (tx : Bool) (s : State) :
    (loseSync n tx s).windows.get m = if m = n then .reset else s.windows.get m := by
  rw [loseSync, enterLost_windows]; simp

/-- The records of a loss, with no adoption due: the SYNC, the FAULT of LOST and those of the GROUP that it gives. -/
theorem loseSync_records {n : Line} {s : State} (tx : Bool) (hroom : s.evq.records.length ≤ 22)
    (hm : s.bc.adoptionSet.get n = false) (hl : (s.causes.get n).lost = false) : (loseSync n tx s).evq.records
      = s.evq.records ++ [⟨.sync, n, 0, 1, 4, s.stampOf n⟩, ⟨.fault, n, 0, 1, 1, s.stampOf n⟩]
        ++ (if s.policyOf n = .isolateGroup then groupFaults s (s.otherMember n) else []) := by
  have stop : ∀ t, t.bc = s.bc → (transmitStop n t).evq = t.evq := fun t hb => by
    have out : (dropHolds n t).bc.adoptionSet.get n = false := by simpa [hb] using hm
    rw [transmitStop, adopt_out out]; rfl
  have report : ∀ t, t.evq = s.evq → t.causes = s.causes → t.policies = s.policies →
      (∀ m, (t.lines.get m).config = (s.lines.get m).config) → (∀ x, (t.stores.get x).frameCount = (s.stores.get x).frameCount) →
      (reportLost n t).evq.records = s.evq.records ++ [⟨.sync, n, 0, 1, 4, s.stampOf n⟩, ⟨.fault, n, 0, 1, 1, s.stampOf n⟩]
        ++ (if s.policyOf n = .isolateGroup then groupFaults s (s.otherMember n) else []) := by
    intro t hq hc hp hlines hs
    have stamp : ∀ m, t.stampOf m = s.stampOf m := fun m => by simp only [State.stampOf, hs]
    have first : (sendEvent .sync n 4 t).evq.records = s.evq.records ++ [⟨.sync, n, 0, 1, 4, s.stampOf n⟩] := by
      rw [sendEvent_records .sync n 4 (by rw [hq]; omega), hq, stamp]
    have faults : groupFaults (sendEvent .sync n 4 t) ((sendEvent .sync n 4 t).otherMember n)
        = groupFaults s (s.otherMember n) := by
      have member : (sendEvent .sync n 4 t).otherMember n = s.otherMember n := by
        funext m; simp [State.otherMember, State.groupOf, hlines]
      rw [member]
      exact groupFaults_congr_on fun m _ => ⟨by simp [hc], by rw [← stamp m]; simp [State.stampOf]⟩
    have policy : (sendEvent .sync n 4 t).policyOf n = s.policyOf n := policyOf_congr (by simp [hp]) (by simpa using hlines) n
    have stamp' : (sendEvent .sync n 4 t).stampOf n = s.stampOf n := by rw [← stamp]; simp [State.stampOf]
    rw [reportLost, addOwnCause_records n .lost (by simpa [hc, CauseSet.has] using hl) (by rw [first, List.length_append]; simp; omega), first,
      faults, policy, stamp']
    simp [Cause.code]
  have quiet : ∀ u, (receiveStop n u).evq = u.evq := fun u => by simp
  unfold loseSync enterLost; dsimp only
  split
  · rw [quiet]
    exact report _ (by rw [stop _ (by simp)]; simp) (by simp) (by simp) (by simp) fun x => by
      rw [transmitStop_stores]; simp [Store.release]
  · rw [stop _ (by simp)]
    rw [quiet]
    exact report _ (by simp) (by simp) (by simp) (by simp) fun x => by simp

/-! ### Expiries -/

/-- The bit clocks of a line whose timer is armed are counted. -/
theorem bitClocks_received_of_armed {n : Line} {s : State} (h : (s.lines.get n).timerArmed = true) (bits : List Bool) :
    (bitClocks n bits s).received.get n = s.received.get n ++ bits := by
  obtain ⟨received, -⟩ := bitClocks_received n bits s
  rw [received, if_pos (by simp [State.counting, h])]

theorem bitsTaken (n : Line) (bits : List Bool) (s : State) : BitsTaken (· == n) s (bitClocks n bits s) :=
  (BitsTaken.refl (· == n) s).bitClocks (beq_self_eq_true n) bits

section
variable {n : Line} {s : State} (ht : (s.lines.get n).config.timing = .external) (samples : List Bool) (tx : Bool)
  (turns : List Nat)
include ht

theorem syncArrival_eq : syncArrival n samples tx turns s
    = inTurn turns (fun t => judgeArrival n (t.received.get n) tx t) (bitClocks n samples s) := if_pos ht

/-- An arrival whose judgement is known. -/
theorem syncArrival_of_judged {g : State → State} (h : judgeArrival n ((bitClocks n samples s).received.get n) tx
      (gathering (bitClocks n samples s)) = g (gathering (bitClocks n samples s))) :
    syncArrival n samples tx turns s = inTurn turns g (bitClocks n samples s) := by
  rw [syncArrival_eq ht]
  exact inTurn_congr h

theorem timerExpiry_eq (ha : (s.lines.get n).timerArmed = true) :
    timerExpiry n samples tx turns s = inTurn turns (expire n tx) (bitClocks n samples s) := if_pos ⟨ht, ha⟩

theorem timerExpiry_of_verify (ha : (s.lines.get n).timerArmed = true) (hr : (s.lines.get n).receiver = .verify) :
    timerExpiry n samples tx turns s = enterReceiver n .hunt (bitClocks n samples s) := by
  have hunts : expire n tx (gathering (bitClocks n samples s)) = enterReceiver n .hunt (gathering (bitClocks n samples s)) := by
    have receiver : ((gathering (bitClocks n samples s)).lines.get n).receiver = .verify := by simpa [gathering] using hr
    simp only [expire, receiver]
  rw [timerExpiry_eq ht samples tx turns ha, inTurn_quiet _ _ _ (by unfold gathering at hunts; rw [hunts]; rfl)]
  unfold gathering at hunts
  rw [hunts]; rfl

theorem timerExpiry_of_locked (ha : (s.lines.get n).timerArmed = true) (hr : (s.lines.get n).receiver = .locked) :
    timerExpiry n samples tx turns s = inTurn turns (loseSync n tx) (bitClocks n samples s) := by
  rw [timerExpiry_eq ht samples tx turns ha]
  exact inTurn_congr (expire_of_locked (by simpa [gathering] using hr) tx)

end

/-- Records that form one chain are taken as they were sent, with room for them. -/
theorem inTurn_records_of_chain {f : State → State} {s : State} {rs : List EventRecord} (turns : List Nat)
    (hf : (f (gathering s)).evq.records = rs) (hc : chains rs = [rs]) (hroom : s.evq.records.length + rs.length ≤ 32) :
    (inTurn turns f s).evq.records = s.evq.records ++ rs := by
  unfold gathering at hf
  rw [inTurn_room turns f s (by rw [hf]; exact hroom), hf, hc, interleave_single]
  rfl

/-- The FAULTs of GROUP follow any record, and one another (R165). -/
theorem isChain_of_group (prev : EventRecord) {gained : List EventRecord} (h : ∀ r ∈ gained, r.kind = .fault ∧ r.detail = 3) :
    (prev :: gained).IsChain fun p q => p.continues q = true := by
  induction gained generalizing prev with
  | nil => exact .singleton _
  | cons r rs ih =>
    obtain ⟨⟨kind, detail⟩, rest⟩ := List.forall_mem_cons.mp h
    exact List.isChain_cons_cons.mpr ⟨by simp [EventRecord.continues, kind, detail], ih r rest⟩

/-- The reports of a loss of sync form one chain (R165). -/
theorem chain_of_lost (n : Line) (w : Word) {gained : List EventRecord} (h : ∀ r ∈ gained, r.kind = .fault ∧ r.detail = 3) :
    chains ([⟨.sync, n, 0, 1, 4, w⟩, ⟨.fault, n, 0, 1, 1, w⟩] ++ gained)
      = [[⟨.sync, n, 0, 1, 4, w⟩, ⟨.fault, n, 0, 1, 1, w⟩] ++ gained] :=
  chains_chain _ _ (List.isChain_cons_cons.mpr ⟨rfl, isChain_of_group _ h⟩)

/-- The loss of a locked line, with the bit clocks before it and its records taken in turn. -/
theorem lossOf_spec {n : PhysLine} {s u t : State} (bits : BitsTaken (· == n.line) s u)
    (received : ∀ m, m ≠ n.line → u.received.get m = s.received.get m) {turns : List Nat} {tx : Bool}
    (ht : t = inTurn turns (loseSync n.line tx) u) :
    Stops (· == n.line) s t ∧ FramesEnded (· == n.line) s t ∧ FlagsAfter noLine noLine s t
    ∧ (∀ m, t.lines.get m = if m = n.line then (s.lines.get m).enter .lost else s.lines.get m)
    ∧ (∀ m k, t.counter m k = if m = n.line ∧ (k = SYNC_ERRORS ∨ k = SYNC_LOSSES) then satInc (s.counter m k) else s.counter m k)
    ∧ (∀ m, t.causes.get m = (addOwnCause n.line .lost s).causes.get m)
    ∧ (∀ m, t.windows.get m = if m = n.line then .reset else s.windows.get m)
    ∧ (∀ m, m ≠ n.line → t.received.get m = s.received.get m)
    ∧ (s.evq.records.length ≤ 22 → s.bc.adoptionSet.get n.line = false → (s.causes.get n.line).lost = false →
      t.evq.records = s.evq.records
        ++ [⟨.sync, n.line, 0, 1, 4, s.stampOf n.line⟩, ⟨.fault, n.line, 0, 1, 1, s.stampOf n.line⟩]
        ++ (if s.policyOf n.line = .isolateGroup then groupFaults s (s.otherMember n.line) else [])) := by
  have lines : u.lines = s.lines := bits.same .lines
  have counters : u.counters = s.counters := bits.same .counters
  have causes : u.causes = s.causes := bits.same .causes
  have policies : u.policies = s.policies := bits.same .policies
  have windows : u.windows = s.windows := bits.same .windows
  have evq : u.evq = s.evq := bits.same .evq
  have bc : u.bc = s.bc := bits.same .bc
  have stops : Stops (· == n.line) u t := ht ▸ .inTurn (.loseSync n.line tx _)
  have ends : FramesEnded (· == n.line) u t := ht ▸ .inTurn (.loseSync n.line tx _)
  have flags : FlagsAfter noLine noLine u t := ht ▸ .inTurn (.loseSync n.line tx _)
  refine ⟨bits.stops stops fun _ => id,
    bits.framesEnded.afterNone ends, bits.flags.thenNone flags,
    fun m => ?_, fun m k => ?_, fun m => ?_, fun m => ?_, fun m hm => ?_, fun hlen hmem hlost => ?_⟩
  · have : t.lines = (loseSync n.line tx (gathering u)).lines := by simp [ht, gathering]
    rw [this, loseSync_lines]
    simp only [gathering, State.withEvq_lines, lines]
    split
    · next h => rw [h]
    · rfl
  · have : t.counters = (loseSync n.line tx (gathering u)).counters := by simp [ht, gathering]
    rw [counter_congr this, loseSync_counter]
    have : ∀ m k, (gathering u).counter m k = s.counter m k := fun m k => counter_congr (by simp [gathering, counters]) m k
    rw [this]
  · have : t.causes = (loseSync n.line tx (gathering u)).causes := by simp [ht, gathering]
    rw [this, loseSync_causes]
    exact addOwnCause_causes_congr (by simp [gathering, causes]) (by simp [gathering, policies]) (fun m => by simp [gathering, lines]) ..
  · have : t.windows = (loseSync n.line tx (gathering u)).windows := by simp [ht, gathering]
    rw [this, loseSync_windows]
    simp only [gathering, State.withEvq_windows, windows]
  · have : t.received = u.received := by simp [ht, loseSync]
    rw [this, received m hm]
  · have sent := loseSync_records (n := n.line) (s := gathering u) tx (by simp [gathering]) (by simpa [gathering, bc] using hmem)
      (by simpa [gathering, causes] using hlost)
    have stamp : ∀ m, (gathering u).stampOf m = s.stampOf m := fun m => by
      simp [State.stampOf, gathering, (bits.frames m).frameCount]
    have member : (gathering u).otherMember n.line = s.otherMember n.line := by
      funext m; simp [State.otherMember, State.groupOf, gathering, lines]
    have policy : (gathering u).policyOf n.line = s.policyOf n.line :=
      policyOf_congr (by simp [gathering, policies]) (fun m => by simp [gathering, lines]) _
    have faults : groupFaults (gathering u) (s.otherMember n.line) = groupFaults s (s.otherMember n.line) :=
      groupFaults_congr_on fun m _ => ⟨by simp [gathering, causes], stamp m⟩
    have few : (groupFaults s (s.otherMember n.line)).length ≤ 8 := groupFaults_length_of_not (otherMember_self s n.line)
    rw [stamp, policy, member, faults] at sent
    have empty : (gathering u).evq.records = [] := rfl
    rw [empty, List.nil_append] at sent
    generalize hg : (if s.policyOf n.line = .isolateGroup then groupFaults s (s.otherMember n.line) else []) = gained at sent
    have short : gained.length ≤ 8 := by
      rw [← hg]; split
      · exact few
      · simp
    have group : ∀ r ∈ gained, r.kind = .fault ∧ r.detail = 3 := by
      rw [← hg]; split
      · intro r hr
        obtain ⟨m, -, rfl⟩ := List.mem_map.mp hr
        exact ⟨rfl, rfl⟩
      · simp
    rw [ht, ← evq, List.append_assoc]
    exact inTurn_records_of_chain turns sent (chain_of_lost _ _ group) (by rw [evq, List.length_append]; simp; omega)

/-! ### Arrivals that are losses -/

theorem judgeArrival_of_late {n : Line} {s : State} (hr : (s.lines.get n).receiver = .locked) {bits : List Bool}
    (hlen : (s.lines.get n).config.slotCount * 16 + 16 ≤ bits.length) (tx : Bool) :
    judgeArrival n bits tx s = firstArrival n (loseSync n tx s) := by
  simp only [judgeArrival, hr]
  rw [if_pos (show (s.lines.get n).config.frameBits + Config.expiryMargin ≤ bits.length from hlen), expire_of_locked hr]

theorem judgeArrival_of_second_early {n : Line} {s : State} (hr : (s.lines.get n).receiver = .locked) {bits : List Bool}
    (hlen : bits.length < (s.lines.get n).config.slotCount * 16) (he : (s.lines.get n).earlyCount ≠ 0) (tx : Bool) :
    judgeArrival n bits tx s = loseSync n tx s := by
  have frame : (s.lines.get n).config.frameBits = (s.lines.get n).config.slotCount * 16 := rfl
  have margin : Config.expiryMargin = 16 := rfl
  simp only [judgeArrival, hr]
  rw [if_neg (by omega)]
  simp only [lockedArrival]
  rw [if_neg (by omega), if_neg (by omega), if_neg he]
  rfl

theorem firstArrival_of_lost {n : Line} {s : State} (hr : (s.lines.get n).receiver = .lost) :
    firstArrival n s = if (s.lines.get n).config.autoRehunt then toVerify n s else s := by
  simp only [firstArrival, hr]

/-- The step to VERIFY bears on nothing that the queue does. -/
theorem appendRecord_toVerify (n : Line) (r : EventRecord) (s : State) :
    appendRecord r (toVerify n s) = toVerify n (appendRecord r s) := by
  have evq : (toVerify n s).evq = s.evq := rfl
  by_cases h : s.evq.records.length < Config.eventCapacity
  · rw [appendRecord, appendRecord, evq, if_pos h, if_pos h]; rfl
  · rw [appendRecord, appendRecord, evq, if_neg h, if_neg h]; rfl

theorem inTurn_toVerify (n : Line) (turns : List Nat) (f : State → State) (s : State) :
    inTurn turns (fun t => toVerify n (f t)) s = toVerify n (inTurn turns f s) := by
  have taken : ∀ (rs : List EventRecord) (t : State), rs.foldl (fun u r => appendRecord r u) (toVerify n t)
      = toVerify n (rs.foldl (fun u r => appendRecord r u) t) := by
    intro rs
    induction rs with
    | nil => intro t; rfl
    | cons r rs ih => intro t; rw [List.foldl_cons, List.foldl_cons, appendRecord_toVerify, ih]
  exact taken _ ((f (gathering s)).withEvq s.evq)

/-- An arrival on or past the 16th bit clock after the expected position is the first after the expiry (R12, R19, log 4). -/
theorem syncArrival_of_late {n : Line} {s : State} (ht : (s.lines.get n).config.timing = .external) (samples : List Bool)
    (tx : Bool) (turns : List Nat) (ha : (s.lines.get n).timerArmed = true) (hr : (s.lines.get n).receiver = .locked)
    (hlen : (s.lines.get n).config.slotCount * 16 + 16 ≤ (s.received.get n).length + samples.length) :
    ((s.lines.get n).config.autoRehunt = true →
      syncArrival n samples tx turns s = toVerify n (timerExpiry n samples tx turns s))
    ∧ ((s.lines.get n).config.autoRehunt = false →
      syncArrival n samples tx turns s = timerExpiry n samples tx turns s) := by
  have line := loseSync_lines n n tx (gathering (bitClocks n samples s))
  rw [if_pos rfl] at line
  have config : ((loseSync n tx (gathering (bitClocks n samples s))).lines.get n).config.autoRehunt
      = (s.lines.get n).config.autoRehunt := by rw [line]; simp [LineUnit.enter, gathering]
  have judged : judgeArrival n ((bitClocks n samples s).received.get n) tx (gathering (bitClocks n samples s))
      = if (s.lines.get n).config.autoRehunt then toVerify n (loseSync n tx (gathering (bitClocks n samples s)))
        else loseSync n tx (gathering (bitClocks n samples s)) := by
    rw [judgeArrival_of_late (by simpa [gathering] using hr) ?_ tx, firstArrival_of_lost (by rw [line]; rfl), config]
    simpa [gathering, bitClocks_received_of_armed ha] using hlen
  rw [timerExpiry_of_locked ht samples tx turns ha hr]
  refine ⟨fun h => ?_, fun h => ?_⟩
  · rw [h, if_pos rfl] at judged
    rw [syncArrival_of_judged ht samples tx turns (g := fun t => toVerify n (loseSync n tx t)) judged, inTurn_toVerify]
  · rw [h, if_neg Bool.false_ne_true] at judged
    exact syncArrival_of_judged ht samples tx turns judged

/-- Settles O21: an expiry in LOCKED is a loss, and so are the arrivals of R12 and R16. -/
theorem lossOfSync : Obligations.LossOfSync := by
  intro p samples txFirst turns s ht
  refine ⟨fun ha hr => ?verify, fun ha hr => ?locked, fun ha => ?disarmed, fun ha hr hlen he => ?early, fun ha hr hlen => ?late⟩
  case verify =>
    have run : s.running p.line = false := by simp [State.running, LineUnit.running, hr]
    have only := bitClocks_onlyChanges_of_not_running run samples
    obtain ⟨-, received⟩ := bitClocks_received p.line samples s
    have lines : (bitClocks p.line samples s).lines = s.lines := only .lines (by simp)
    have hunts : OnlyChanges [.lines, .received] (bitClocks p.line samples s)
        (enterReceiver p.line .hunt (bitClocks p.line samples s)) := by
      intro f hf; cases f <;> simp [Field.same] at hf ⊢
    refine ⟨_, congrArg Host.Outcome.next (timerExpiry_of_verify ht samples txFirst turns ha hr), only.trans hunts (by simp),
      fun m hm => ?_, fun m hm => ?_, ?_⟩
    · rw [enterReceiver_lines, if_neg hm, lines]
    · exact received m hm
    · rw [enterReceiver_lines, if_pos rfl, lines]; rfl
  case locked =>
    intro spreads
    obtain ⟨-, received⟩ := bitClocks_received p.line samples s
    have only := timerExpiry_onlyChanges p.line samples txFirst turns s
    obtain ⟨stops, ends, flags, lines, counter, causes, windows, otherBits, records⟩ :=
      lossOf_spec (bitsTaken p.line samples s) received (timerExpiry_of_locked ht samples txFirst turns ha hr)
    have step : exec (.timerExpiry p ⟨samples, txFirst, turns⟩) s = .next (timerExpiry p.line samples txFirst turns s) := rfl
    generalize timerExpiry p.line samples txFirst turns s = t at *
    have hself : (p.line == p.line) = true := beq_self_eq_true _
    obtain ⟨free, -, frames⟩ := stops.store_empty hself
    have others : ∀ m, m ≠ p.line → (m == p.line) = false := fun m hm => beq_eq_false_iff_ne.mpr hm
    refine ⟨t, step, only, fun m hm => by rw [lines, if_neg hm], fun m hm => Tab.ext_get fun k => ?_,
      fun m hm => stops.readers_of_other (others m hm), fun m hm => by rw [windows, if_neg hm], otherBits,
      by rw [lines, if_pos rfl]; rfl, fun k => ?_, ?_, fun m hm => ?_, stops.holds_nothing hself, free, frames,
      (stops.no_load hself).1, by rw [windows, if_pos rfl]; rfl, stops.linesStopped fun m hm => ?_, ends,
      flags.suspensionTested (fun n => by simp) (fun n h => h.elim), records⟩
    · have := counter m k
      rw [if_neg (fun h => hm h.1)] at this; exact this
    · rw [counter]; simp
    · rw [causes, addOwnCause_causes, if_pos rfl]; rfl
    · rw [causes, addOwnCause_causes, if_neg hm]
      refine if_congr ?_ rfl rfl
      simp only [spreads, Bool.and_eq_true, beq_iff_eq, Bool.not_eq_true', CauseSet.has]
      tauto
    · rw [windows, if_pos (beq_iff_eq.mp hm)]; rfl
  case disarmed =>
    have still : timerExpiry p.line samples txFirst turns s = s := if_neg fun h => by rw [ha] at h; cases h.2
    exact congrArg Host.Outcome.next still
  case early =>
    have arrival : syncArrival p.line samples txFirst turns s = timerExpiry p.line samples txFirst turns s := by
      rw [timerExpiry_of_locked ht samples txFirst turns ha hr]
      refine syncArrival_of_judged ht _ _ _
        (judgeArrival_of_second_early (by simpa [gathering] using hr) ?_ (by simpa [gathering] using he) txFirst)
      simpa [gathering, bitClocks_received_of_armed ha] using hlen
    exact congrArg Host.Outcome.next arrival
  case late =>
    refine ⟨timerExpiry p.line samples txFirst turns s, rfl, congrArg Host.Outcome.next ?_⟩
    obtain hre | hre := Bool.eq_false_or_eq_true (s.lines.get p.line).config.autoRehunt
    · rw [hre]; exact (syncArrival_of_late ht samples txFirst turns ha hr hlen).1 hre
    · rw [hre]; exact (syncArrival_of_late ht samples txFirst turns ha hr hlen).2 hre

end Sys2Proof.Machine
end

section
set_option Elab.async false -- one proof after the other, within the check's limit on threads
/-! Releases at boundaries (R40, R60): readers and stores while some lines have had the transmit side of their boundary and some
the receive side, as a relation of the states before and after. -/

namespace Sys2Proof.Machine

/-! ### The receive side and RETIRED buffers -/

/-- What the receive side of line `n` at a boundary does to a buffer of its store, as far as holders can tell: a RETIRED buffer is
kept, and no other becomes RETIRED; a FREE one may take the next frame (R45, R48). -/
def Buffer.SparesRetired (n : Line) (b c : Buffer) : Prop :=
  (b.state = .retired → c = b) ∧ (c.state = .retired → b.state = .retired)
    ∧ (b.state = .free → c.state = .free ∨ c.state = .filling ∨ (n = hostLine ∧ c.state = .ready))

namespace Buffer.SparesRetired

variable {n : Line} {a b c : Buffer}

theorem refl (n : Line) (b : Buffer) : b.SparesRetired n b := ⟨fun _ => rfl, id, fun h => .inl h⟩

/-- A buffer that is not RETIRED is replaced by one that is not. -/
theorem of_ne (hb : b.state ≠ .retired) (hc : c.state ≠ .retired)
    (hf : b.state = .free → c.state = .free ∨ c.state = .filling ∨ (n = hostLine ∧ c.state = .ready)) : b.SparesRetired n c :=
  ⟨fun h => absurd h hb, fun h => absurd h hc, hf⟩

end Buffer.SparesRetired

theorem choose_ne_retired {st : Store} {i : Fin 4} (h : st.choose = some i) : (st.buffers.get i).state ≠ .retired := by
  obtain ⟨hf, -⟩ | ⟨-, f, hf, -⟩ := Store.choose_eq_some h
  · rw [hf]; decide
  · obtain ⟨hr, -⟩ := (st.mem_reusable i f).mp hf
    rw [hr]; decide

theorem complete_spares (n : Line) (st : Store) (d : Bool) (f : List Word) (i : Fin 4) :
    (st.buffers.get i).SparesRetired n ((st.complete d f).buffers.get i)
      ∧ ((st.buffers.get i).state = .free → (st.complete d f).buffers.get i = st.buffers.get i) := by
  cases hi : st.filling with
  | some j =>
    have filling := Store.state_of_filling hi
    rw [st.complete_buffer hi]
    by_cases hij : i = j
    · subst hij
      rw [if_pos rfl]
      exact ⟨.of_ne (by rw [filling]; decide) (by simp [Buffer.take]) fun h => (by rw [filling] at h; cases h),
        fun h => by rw [filling] at h; cases h⟩
    · rw [if_neg hij]; exact ⟨.refl n _, fun _ => rfl⟩
  | none =>
    rw [Store.complete, hi]
    dsimp only; split <;> exact ⟨.refl n _, fun _ => rfl⟩

theorem acquire_spares (n : Line) (s : State) (i : Fin 4) :
    ((s.stores.get n).buffers.get i).SparesRetired n (((acquire n s).stores.get n).buffers.get i) := by
  rw [acquire_stores, if_pos rfl]
  cases hc : (s.stores.get n).choose with
  | some j =>
    have buffer := (s.stores.get n).modify_buffer j i fun b => b.become .filling
    dsimp only
    rw [show ({ (s.stores.get n).modify j (fun b => b.become .filling) with overrunRun := false } : Store).buffers.get i
      = ((s.stores.get n).modify j fun b => b.become .filling).buffers.get i from rfl, buffer]
    split
    · next h =>
      subst h
      exact .of_ne (choose_ne_retired hc) (by simp [Buffer.become]) fun _ => .inr (.inl rfl)
    · exact .refl n _
  | none => exact .refl n _

theorem receiveBoundary_spares (n : Line) (frame : List Word) (short : Bool) (s : State) (i : Fin 4) :
    ((s.stores.get n).buffers.get i).SparesRetired n (((receiveBoundary n frame short s).stores.get n).buffers.get i) := by
  by_cases hr : (s.stores.get n).receiving = true
  · rw [receiveBoundary_of_receiving frame short hr]
    generalize hu : modifyStore n (fun st => st.complete (judge (s.lines.get n) frame short).damaged frame)
      (report n (judge (s.lines.get n) frame short) s) = u
    have store : u.stores.get n = (s.stores.get n).complete (judge (s.lines.get n) frame short).damaged frame := by
      rw [← hu, modifyStore_stores, if_pos rfl, report_stores]
    have stores : (advanceWindow n (judge (s.lines.get n) frame short).damaged (acquire n u)).stores = (acquire n u).stores := by
      simp
    obtain ⟨⟨keep, only, -⟩, free⟩ := complete_spares n (s.stores.get n) (judge (s.lines.get n) frame short).damaged frame i
    obtain ⟨keep', only', free'⟩ := acquire_spares n u i
    rw [stores]
    rw [store] at keep' only' free'
    exact ⟨fun h => (keep' (by rw [keep h]; exact h)).trans (keep h), fun h => only (only' h),
      fun h => free' (by rw [free h]; exact h)⟩
  · rw [Machine.receiveBoundary, if_neg hr]
    exact acquire_spares n s i

theorem receiveBoundary_otherStore {n m : Line} (h : m ≠ n) (frame : List Word) (short : Bool) (s : State) :
    (receiveBoundary n frame short s).stores.get m = s.stores.get m := by
  unfold receiveBoundary; split
  · simp only [advanceWindow_frame]
    rw [acquire_stores, if_neg h, modifyStore_stores, if_neg h, report_stores]
  · rw [acquire_stores, if_neg h]

theorem placeInsert_stores (f : InsertFrame) (s : State) :
    (∀ m, m ≠ hostLine → (placeInsert f s).stores.get m = s.stores.get m)
    ∧ ∀ i, ((s.stores.get hostLine).buffers.get i).SparesRetired hostLine
      (((placeInsert f s).stores.get hostLine).buffers.get i) := by
  unfold placeInsert
  split
  · next j hc =>
    refine ⟨fun m hm => by rw [modifyStore_stores, if_neg hm], fun i => ?_⟩
    rw [modifyStore_stores, if_pos rfl]
    have buffer := (s.stores.get hostLine).modify_buffer j i
      fun b => b.take ((s.stores.get hostLine).frameCount + 1) false f.words
    refine (?_ : ((s.stores.get hostLine).buffers.get i).SparesRetired hostLine
      (((s.stores.get hostLine).modify j fun b => b.take ((s.stores.get hostLine).frameCount + 1) false f.words).buffers.get i))
    rw [buffer]; split
    · next h =>
      subst h
      exact .of_ne (choose_ne_retired hc) (by simp [Buffer.take]) fun _ => .inr (.inr ⟨rfl, rfl⟩)
    · exact .refl _ _
  · refine ⟨fun m hm => by rw [modifyStore_stores, if_neg hm, overrun_stores, if_neg hm], fun i => ?_⟩
    rw [modifyStore_stores, if_pos rfl, overrun_stores, if_pos rfl]
    exact .refl _ _

theorem hostBoundary_stores (s : State) :
    (∀ m, m ≠ hostLine → (hostBoundary s).stores.get m = s.stores.get m)
    ∧ ∀ i, ((s.stores.get hostLine).buffers.get i).SparesRetired hostLine
      (((hostBoundary s).stores.get hostLine).buffers.get i) := by
  have stores : (hostBoundary s).stores = (handOver s).stores := by simp [hostBoundary]
  rw [stores]
  unfold handOver; split
  · exact placeInsert_stores _ _
  · have same : ∀ t : State, t.stores = s.stores → (∀ m, m ≠ hostLine → t.stores.get m = s.stores.get m)
        ∧ ∀ i, ((s.stores.get hostLine).buffers.get i).SparesRetired hostLine ((t.stores.get hostLine).buffers.get i) :=
      fun t h => by rw [h]; exact ⟨fun _ _ => rfl, fun i => .refl _ _⟩
    dsimp only; split <;> exact same _ (by simp)

/-! ### Releases -/

/-- The reader of a line that has released its holds, by what its store held before (R60). -/
def Reader.ReleasedFrom (y : Line) (st : Store) (r q : Reader) : Prop :=
  q.held = none ∧ (r.held = none → q.cursor = r.cursor)
    ∧ ∀ i, r.held = some i → ((st.buffers.get i).state ≠ .retired → q.cursor = r.cursor)
      ∧ ((st.buffers.get i).state = .retired → (st.buffers.get i).holders.get y = true → q.cursor = none)

/-- Buffer `b` of a store that has had its receive side, after the lines of `left` have released their holds. -/
def Buffer.RetiredBy (x : Line) (left : Line → Bool) (b c : Buffer) : Prop :=
  (c.state = .retired → b.state = .retired)
    ∧ (b.state = .retired → (∃ z, b.holders.get z = true ∧ left z = false) → b.LeftBy left c)
    ∧ (b.state = .retired → (∃ z, b.holders.get z = true) → (∀ z, b.holders.get z = true → left z = true) →
        c.state = .free ∨ c.state = .filling ∨ (x = hostLine ∧ c.state = .ready))

/-- From `s` to `t` the lines of `left` have had the transmit side of their boundary and those of `met` the receive side. -/
structure Released (left met : Line → Bool) (s t : State) : Prop where
  kept : ∀ y, left y = false → t.readers.get y = s.readers.get y
  released : ∀ y x, left y = true →
    ((s.readers.get y).get x).ReleasedFrom y (s.stores.get x) ((t.readers.get y).get x)
  other : ∀ x, met x = false → t.stores.get x = { s.stores.get x with buffers := (t.stores.get x).buffers }
    ∧ ∀ i, ((s.stores.get x).buffers.get i).LeftBy left ((t.stores.get x).buffers.get i)
  own : ∀ x i, met x = true → ((s.stores.get x).buffers.get i).RetiredBy x left ((t.stores.get x).buffers.get i)

namespace Buffer

/-- Holders that leave retire no buffer. -/
theorem LeftBy.retired {a : Line → Bool} {b c : Buffer} (h : b.LeftBy a c) (hc : c.state = .retired) : b.state = .retired := by
  by_cases hl : b.LastLeft a
  · exact hl.1
  · rw [h.kept hl] at hc; exact hc

/-- A RETIRED buffer that some line still holds stays RETIRED. -/
theorem LeftBy.stays {a : Line → Bool} {b c : Buffer} (h : b.LeftBy a c) {z : Line} (hz : b.holders.get z = true)
    (ha : a z = false) : c = { b with holders := c.holders } :=
  h.kept fun hl => by rw [hl.2.2 z hz] at ha; cases ha

variable {x : Line} {a : Line → Bool} {b c d : Buffer}

/-- The receive side of the line meets a buffer that holders have left. -/
theorem LeftBy.thenSpared (h : b.LeftBy a c) (k : c.SparesRetired x d) : b.RetiredBy x a d := by
  obtain ⟨keep, only, free⟩ := k
  refine ⟨fun hd => h.retired (only hd), fun hr ⟨z, hz, ha⟩ => ?_, fun hr hsome hall => free (by rw [h.freed ⟨hr, hsome, hall⟩])⟩
  have hc := h.stays hz ha
  rw [keep (by rw [hc]; exact hr)]; exact h

/-- Another holder leaves after the receive side. -/
theorem RetiredBy.thenLeft (h : b.RetiredBy x a c) {a' : Line → Bool} (k : c.LeftBy a' d) :
    b.RetiredBy x (eitherLine a a') d := by
  obtain ⟨only, held, gone⟩ := h
  refine ⟨fun hd => only (k.retired hd), fun hr ⟨z, hz, hout⟩ => ?_, fun hr hsome hall => ?_⟩
  · obtain ⟨ha, -⟩ := Bool.or_eq_false_iff.mp hout
    exact (held hr ⟨z, hz, ha⟩).trans k
  · by_cases ha : ∀ z, b.holders.get z = true → a z = true
    · have hc := gone hr hsome ha
      have same : d.state = c.state := by
        rw [k.kept fun hl => by rw [hl.1] at hc; simp at hc]
      rw [same]; exact hc
    · obtain ⟨z, hz, hout⟩ : ∃ z, b.holders.get z = true ∧ a z = false := by simpa using ha
      have left := (held hr ⟨z, hz, hout⟩).trans k
      exact .inl (by rw [left.freed ⟨hr, hsome, hall⟩])

end Buffer

namespace Released

variable {left met : Line → Bool} {s t u : State}

theorem same (hr : t.readers = s.readers := by simp) (hs : t.stores = s.stores := by simp) : Released neither neither s t where
  kept y _ := by rw [hr]
  released y x h := by cases h
  other x _ := by rw [hs]; exact ⟨rfl, fun i => .refl _⟩
  own x i h := by cases h

theorem frame (h : Released left met s t) (hr : u.readers = t.readers := by simp) (hs : u.stores = t.stores := by simp) :
    Released left met s u := by
  obtain ⟨kept, released, other, own⟩ := h
  constructor <;> simpa only [hr, hs]

/-- The state of a buffer of a RETIRED frame, and of one that a line still holds. -/
theorem retired (h : Released left met s t) {x : Line} {i : Fin 4} (hi : ((t.stores.get x).buffers.get i).state = .retired) :
    ((s.stores.get x).buffers.get i).state = .retired := by
  cases hm : met x with
  | true => exact (h.own x i hm).1 hi
  | false => exact ((h.other x hm).2 i).retired hi

theorem stays (h : Released left met s t) {x y : Line} {i : Fin 4} (hi : ((s.stores.get x).buffers.get i).state = .retired)
    (hy : ((s.stores.get x).buffers.get i).holders.get y = true) (hl : left y = false) :
    ((t.stores.get x).buffers.get i).state = .retired := by
  have leftBy : ((s.stores.get x).buffers.get i).LeftBy left ((t.stores.get x).buffers.get i) := by
    cases hm : met x with
    | true => exact (h.own x i hm).2.1 hi ⟨y, hy, hl⟩
    | false => exact (h.other x hm).2 i
  rw [leftBy.stays hy hl]; exact hi

/-- The transmit side of line `n`. -/
theorem transmit (h : Released left met s t) {n : Line} (hn : left n = false) :
    Released (eitherLine left (· == n)) met s (transmitBoundary n t) where
  kept y hy := by
    obtain ⟨hl, hne⟩ := Bool.or_eq_false_iff.mp hy
    rw [transmitBoundary_readers, if_neg (beq_eq_false_iff_ne.mp hne), h.kept y hl]
  released y x hy := by
    by_cases hyn : y = n
    · subst hyn
      rw [transmitBoundary_readers, if_pos rfl, Tab.get_of, h.kept y hn]
      refine ⟨Reader.released_held _ _, fun hnone => ?_, fun i hi => ⟨fun hret => ?_, fun hret hold => ?_⟩⟩
      · simp only [Reader.released, hnone]
      · simp only [Reader.released, hi]
        rw [if_neg fun ht => hret (h.retired ht)]
      · simp only [Reader.released, hi]
        rw [if_pos (h.stays hret hold hn)]
    · have hl := (eitherLine_eq_true.mp hy).resolve_right fun hb => hyn (beq_iff_eq.mp hb)
      rw [transmitBoundary_readers, if_neg hyn]; exact h.released y x hl
  other x hm := by
    obtain ⟨store, buffer⟩ := h.other x hm
    rw [transmitBoundary_stores]
    refine ⟨?_, fun i => ?_⟩
    · conv_lhs => rw [store]
      rfl
    · rw [Store.release_buffer]; exact (buffer i).trans (Buffer.leftBy_release n _)
  own x i hm := by
    rw [transmitBoundary_stores, Store.release_buffer]
    exact (h.own x i hm).thenLeft (Buffer.leftBy_release n _)

/-- The receive side of line `n`. -/
theorem receive (h : Released left met s t) {n : Line} (hn : met n = false) (hr : u.readers = t.readers)
    (hother : ∀ m, m ≠ n → u.stores.get m = t.stores.get m)
    (hown : ∀ i, ((t.stores.get n).buffers.get i).SparesRetired n ((u.stores.get n).buffers.get i)) :
    Released left (eitherLine met (· == n)) s u where
  kept y hy := by rw [hr]; exact h.kept y hy
  released y x hy := by rw [hr]; exact h.released y x hy
  other x hx := by
    obtain ⟨hm, hne⟩ := Bool.or_eq_false_iff.mp hx
    rw [hother x (beq_eq_false_iff_ne.mp hne)]; exact h.other x hm
  own x i hx := by
    by_cases hxn : x = n
    · subst hxn; exact ((h.other x hn).2 i).thenSpared (hown i)
    · have hm := (eitherLine_eq_true.mp hx).resolve_right fun hb => hxn (beq_iff_eq.mp hb)
      rw [hother x hxn]; exact h.own x i hm

/-- The bit clocks before. -/
theorem afterBits (h : Released left met t u) {taken : Line → Bool} (k : BitsTaken taken s t)
    (hm : ∀ x, met x = false → taken x = false) : Released left met s u where
  kept y hy := by rw [h.kept y hy, show t.readers = s.readers from k.same .readers]
  released y x hy := by
    have readers : t.readers = s.readers := k.same .readers
    have := h.released y x hy
    rw [readers] at this
    obtain ⟨held, none, some⟩ := this
    refine ⟨held, none, fun i hi => ?_⟩
    have := some i hi
    rwa [(k.frames x).state, (k.frames x).holders] at this
  other x hx := by
    have := h.other x hx
    rwa [k.other x (hm x hx)] at this
  own x i hx := by
    obtain ⟨only, held, gone⟩ := h.own x i hx
    rw [(k.frames x).state] at only held gone
    rw [(k.frames x).holders] at held gone
    refine ⟨only, fun hr hz => ?_, gone⟩
    have := held hr hz
    rwa [k.words x i (by rw [hr]; decide)] at this

/-- Every named line has had both sides of its boundary. -/
theorem holdsReleased {leave : Line → Bool} (h : Released leave leave s t) : HoldsReleased leave s t := by
  refine ⟨fun y x hy => h.released y x hy, fun x hx => (h.other x hx).1, fun x i => ⟨fun hx => (h.other x hx).2 i, ?_, ?_⟩⟩
  · intro hr hz
    cases hx : leave x with
    | true => exact (h.own x i hx).2.1 hr hz
    | false => exact (h.other x hx).2 i
  · intro hr hsome hall
    cases hx : leave x with
    | true => exact (h.own x i hx).2.2 hr hsome hall
    | false => exact .inl (by rw [((h.other x hx).2 i).freed ⟨hr, hsome, hall⟩])

end Released

end Sys2Proof.Machine
end

section
set_option Elab.async false -- one proof after the other, within the check's limit on threads
/-! The boundaries of several lines, one side after another (R9, R15, R60, R84, R100, R125, R149): all that they do beside the
frames that end in the stores, as a relation of the states before and after. -/

namespace Sys2Proof.Machine

/-! ### Causes that a judged frame gives (R149, R154) -/

/-- The line gains DEGRADED from `s` to `t`. -/
def Degraded (s t : State) (m : Line) : Prop := (t.causes.get m).degraded = true ∧ (s.causes.get m).degraded = false

/-- From `s` to `t` causes are added as judged frames of the lines of `judged` give them. -/
structure Degrades (judged : Line → Bool) (s t : State) : Prop where
  policies : t.policies = s.policies
  config : ∀ m, (t.lines.get m).config = (s.lines.get m).config
  lost : ∀ n, (t.causes.get n).lost = (s.causes.get n).lost
  grows : ∀ n, (s.causes.get n).degraded = true → (t.causes.get n).degraded = true
  gains : ∀ n, Degraded s t n → judged n = true ∧ n ≠ hostLine
  group : ∀ n, (t.causes.get n).group = true ↔ (s.causes.get n).group = true
    ∨ (s.policyOf n = .isolateGroup ∧ ∃ m, m ≠ n ∧ s.groupOf m = s.groupOf n ∧ Degraded s t m)

namespace Degrades

theorem same {s t : State} (hk : t.causes = s.causes := by simp) (hp : t.policies = s.policies := by simp)
    (hc : ∀ m, (t.lines.get m).config = (s.lines.get m).config := by simp) : Degrades neither s t := by
  have none : ∀ m, ¬ Degraded s t m := by
    rintro m ⟨h1, h2⟩
    rw [hk, h2] at h1; cases h1
  refine ⟨hp, hc, fun n => by rw [hk], fun n h => by rw [hk]; exact h, fun n h => absurd h (none n), fun n => ?_⟩
  rw [hk]
  exact ⟨.inl, fun h => h.elim id fun ⟨_, m, _, _, hm⟩ => absurd hm (none m)⟩

theorem congr {a b : Line → Bool} {s t : State} (h : Degrades a s t) (hab : ∀ n, a n = b n) : Degrades b s t := by
  obtain rfl : a = b := funext hab
  exact h

theorem weaken {a b : Line → Bool} {s t : State} (h : Degrades a s t) (hab : ∀ n, a n = true → b n = true) : Degrades b s t :=
  { h with gains := fun n hn => (h.gains n hn).imp_left (hab n) }

theorem degraded_trans {a b : Line → Bool} {s t u : State} (h : Degrades a s t) (k : Degrades b t u) (n : Line) :
    Degraded s u n ↔ Degraded s t n ∨ Degraded t u n := by
  have first := h.grows n
  have second := k.grows n
  simp only [Degraded]
  cases hs : (s.causes.get n).degraded <;> cases ht : (t.causes.get n).degraded <;> cases hu : (u.causes.get n).degraded <;>
    simp_all

theorem trans {a b : Line → Bool} {s t u : State} (h : Degrades a s t) (k : Degrades b t u) :
    Degrades (eitherLine a b) s u where
  policies := k.policies.trans h.policies
  config m := (k.config m).trans (h.config m)
  lost n := (k.lost n).trans (h.lost n)
  grows n hn := k.grows n (h.grows n hn)
  gains n hn := by
    obtain hn | hn := (h.degraded_trans k n).mp hn
    · exact (h.gains n hn).imp_left fun hj => eitherLine_eq_true.mpr (.inl hj)
    · exact (k.gains n hn).imp_left fun hj => eitherLine_eq_true.mpr (.inr hj)
  group n := by
    rw [k.group, h.group, policyOf_congr h.policies h.config n]
    simp only [groupOf_congr h.config, h.degraded_trans k]
    constructor
    · rintro ((hg | ⟨hp, m, hm, he, hd⟩) | ⟨hp, m, hm, he, hd⟩)
      · exact .inl hg
      · exact .inr ⟨hp, m, hm, he, .inl hd⟩
      · exact .inr ⟨hp, m, hm, he, .inr hd⟩
    · rintro (hg | ⟨hp, m, hm, he, hd | hd⟩)
      · exact .inl (.inl hg)
      · exact .inl (.inr ⟨hp, m, hm, he, hd⟩)
      · exact .inr ⟨hp, m, hm, he, hd⟩

theorem receiveBoundary {n : Line} (hn : n ≠ hostLine) (frame : List Word) (short : Bool) (s : State) :
    Degrades (· == n) s (receiveBoundary n frame short s) := by
  by_cases hr : (s.stores.get n).receiving = true
  · obtain ⟨own, other⟩ := receiveBoundary_causes_line frame short hr
    generalize s.windowReaches n (judge (s.lines.get n) frame short).damaged = reached at own other
    have flags : FlagsAfter noLine noLine s (Machine.receiveBoundary n frame short s) := .receiveBoundary n frame short s
    generalize Machine.receiveBoundary n frame short s = t at own other flags
    have otherLine : ∀ m, m ≠ n → (t.causes.get m).lost = (s.causes.get m).lost
        ∧ (t.causes.get m).degraded = (s.causes.get m).degraded := fun m hm => by
      rw [other m hm]; split <;> exact ⟨rfl, rfl⟩
    have gained : ∀ m, Degraded s t m ↔ m = n ∧ reached = true ∧ (s.causes.get n).degraded = false := fun m => by
      by_cases hm : m = n
      · subst hm; simp only [Degraded, own, true_and]
        cases (s.causes.get m).degraded <;> simp
      · simp only [Degraded, (otherLine m hm).2, hm, false_and, iff_false]
        rintro ⟨h1, h2⟩; rw [h1] at h2; cases h2
    refine ⟨flags.policies, flags.config, fun m => ?_, fun m hm => ?_, fun m hm => ?_, fun m => ?_⟩
    · by_cases hm : m = n
      · subst hm; rw [own]
      · exact (otherLine m hm).1
    · by_cases hmn : m = n
      · subst hmn; rw [own]; simp [hm]
      · rw [(otherLine m hmn).2]; exact hm
    · obtain ⟨rfl, -⟩ := (gained m).mp hm
      exact ⟨beq_self_eq_true m, hn⟩
    · simp only [gained]
      by_cases hm : m = n
      · subst hm; rw [own]
        constructor
        · exact .inl
        · rintro (h | ⟨-, k, hk, -, rfl, -⟩)
          · exact h
          · exact absurd rfl hk
      · rw [other m hm]
        constructor
        · intro h
          split at h
          · next hc =>
            obtain ⟨hc, hg⟩ := hc
            simp only [Bool.and_eq_true, Bool.not_eq_true', beq_iff_eq] at hc
            obtain ⟨⟨hreach, hdeg⟩, hp⟩ := hc
            exact .inr ⟨by simp only [State.policyOf, hg] at hp ⊢; exact hp, n, Ne.symm hm, hg.symm, rfl, hreach, hdeg⟩
          · exact .inl h
        · rintro (h | ⟨hp, k, -, hg, rfl, hreach, hdeg⟩)
          · split
            · rfl
            · exact h
          · rw [if_pos ⟨by simp only [State.policyOf, hg] at hp ⊢; simp [hreach, hdeg, hp], hg.symm⟩]
  · rw [Machine.receiveBoundary, if_neg hr]
    exact (same (s := s) (t := acquire n s)).weaken fun m hm => (by cases hm)

theorem spreads {judged : Line → Bool} {s t : State} (h : Degrades judged s t) : DegradedSpreads judged s t :=
  fun n => ⟨h.lost n, h.gains n, h.group n⟩

end Degrades

/-! ### Load claims placed -/

/-- The lines of `left` have placed their claims, in some order. -/
def Claims (left : Line → Bool) (s t : State) : Prop :=
  ∃ placed : List Line, placed.Nodup ∧ (∀ n, n ∈ placed ↔ left n = true) ∧ LoadsBy left placed s t

theorem Claims.same {s t : State} (h : t.arb = s.arb := by simp) : Claims neither s t :=
  ⟨[], List.nodup_nil, fun n => by simp [neither], .same h⟩

theorem Claims.frame {left : Line → Bool} {s t u : State} (h : Claims left s t) (ha : u.arb = t.arb := by simp) : Claims left s u := by
  obtain ⟨placed, hd, hm, hl⟩ := h
  exact ⟨placed, hd, hm, hl.congr rfl ha⟩

theorem Claims.transmit {left : Line → Bool} {s t : State} (h : Claims left s t) (n : Line) :
    Claims (eitherLine left (· == n)) s (transmitBoundary n t) := by
  obtain ⟨placed, hd, hm, hl⟩ := h
  have arb := transmitBoundary_arb n t
  have one : LoadsBy (· == n) [n] t (transmitBoundary n t) := by
    obtain ⟨hload, hno⟩ := Grant.killLoad_cases n t.arb.grant
    refine ⟨?_, fun y p live hg => ?_, fun hg => ?_⟩
    · rw [arb]; rfl
    · rw [arb]; exact hload y p live hg
    · rw [arb]; exact hno hg
  refine ⟨_, ?_, fun m => ?_, hl.trans one⟩
  · refine List.nodup_append.mpr ⟨hd.filter _, by simp, fun a ha b hb => ?_⟩
    rw [List.mem_singleton.mp hb]
    rintro rfl
    simp at ha
  · rw [List.mem_append, List.mem_filter, hm, eitherLine_eq_true, List.mem_singleton]
    by_cases hmn : m = n <;> simp [hmn]

/-! ### Boundaries -/

theorem FlagsAfter.weaken {a b c : Line → Prop} {s t : State} (h : FlagsAfter a b s t) (hbc : ∀ n, b n → c n) :
    FlagsAfter a c s t :=
  { h with
    spanKeeps := fun n hn => h.spanKeeps n fun hb => hn (hbc n hb)
    spanGains := fun n hn => h.spanGains n fun hb => hn (hbc n hb) }

/-- The lines whose fixed frame has ended: a physical line's at its transmit side, that of the host line at its delivery. -/
def framesOver (left met : Line → Bool) (n : Line) : Bool := if n = hostLine then met n else left n

/-- From `s` to `t` the lines of `left` have had the transmit side of their boundary and those of `met` the receive side. -/
structure Bounds (left met : Line → Bool) (s t : State) : Prop where
  released : Released left met s t
  flags : FlagsAfter (left · = true) (fun n => left n = true ∨ met n = true) s t
  adopts : Adopts (left · = true) s t
  ended : FramesEnded (framesOver left met) s t
  degrades : Degrades met s t
  claims : Claims left s t
  sends : OnlySends s t

namespace Bounds

variable {left met : Line → Bool} {s t u : State}

theorem congr {left' met' : Line → Bool} (h : Bounds left met s t) (hl : ∀ n, left n = left' n) (hm : ∀ n, met n = met' n) :
    Bounds left' met' s t := by
  obtain rfl : left = left' := funext hl
  obtain rfl : met = met' := funext hm
  exact h

/-- Steps beside the boundaries, which may send reports. -/
theorem thenReports (h : Bounds left met s t) (hsend : OnlySends t u) (hrep : Reports t u) (hr : u.readers = t.readers := by simp)
    (hs : u.stores = t.stores := by simp) (ha : u.arb = t.arb := by simp) (hb : u.bc = t.bc := by simp)
    (hx : u.txas = t.txas := by simp) (hk : u.causes = t.causes := by simp) (hp : u.policies = t.policies := by simp)
    (hc : ∀ m, (u.lines.get m).config = (t.lines.get m).config := by simp) : Bounds left met s u where
  released := h.released.frame hr hs
  flags := h.flags.thenNone (.same hk hp hc fun m => by rw [hx]; exact ⟨rfl, rfl⟩)
  adopts := h.adopts.thenNone (.ofReports hrep hb)
  ended := h.ended.thenNone (.same hx)
  degrades := (h.degrades.trans (.same hk hp hc)).congr fun _ => Bool.or_false _
  claims := h.claims.frame ha
  sends := h.sends.trans hsend (by obtain ⟨-, sent, hq, -⟩ := hrep; rw [hq, List.length_append]; omega)

theorem refl (s : State) : Bounds neither neither s s where
  released := .same rfl rfl
  flags := ((FlagsAfter.refl s).congr (by simp [neither]) (by simp [neither]))
  adopts := (Adopts.refl s).congr (by simp [neither])
  ended := (FramesEnded.same rfl).congr fun n => by simp [framesOver, neither]
  degrades := .same rfl rfl fun _ => rfl
  claims := .same rfl
  sends := .refl s

theorem transmit (h : Bounds left met s t) {n : Line} (hn : left n = false) :
    Bounds (eitherLine left (· == n)) met s (transmitBoundary n t) where
  released := h.released.transmit hn
  flags := ((h.flags.trans (.transmitBoundary n t)).congr (fun m => by simp [eitherLine_eq_true]) (fun _ => Iff.rfl)).weaken
    fun m hm => by
      obtain (hm | hm) | rfl := hm
      · exact .inl (eitherLine_eq_true.mpr (.inl hm))
      · exact .inr hm
      · exact .inl (by simp [eitherLine_eq_true])
  adopts := (h.adopts.trans (.transmitBoundary n t)).congr fun m => by simp [eitherLine_eq_true]
  ended := (h.ended.trans (.transmitBoundary n t)).congr fun m => by
    simp only [eitherLine, framesOver]
    by_cases hm : m = hostLine
    · by_cases hn : n = hostLine
      · simp [hm, hn]
      · simp [hm, Ne.symm hn]
    · by_cases hmn : m = n
      · subst hmn; simp [hm]
      · simp [hm, beq_eq_false_iff_ne.mpr hmn]
  degrades := (h.degrades.trans (.same (t := Machine.transmitBoundary n t))).congr fun _ => Bool.or_false _
  claims := h.claims.transmit n
  sends := h.sends.trans ((OnlySends.keptBySends t).transmitBoundary n (OnlySends.refl t)) (Adopts.transmitBoundary n t).length_le

theorem receive (h : Bounds left met s t) {n : Line} (hn : met n = false) (hp : n ≠ hostLine) (frame : List Word) (short : Bool) :
    Bounds left (eitherLine met (· == n)) s (receiveBoundary n frame short t) where
  released := h.released.receive hn (by simp) (fun m hm => receiveBoundary_otherStore hm frame short t)
    (receiveBoundary_spares n frame short t)
  flags := (h.flags.thenNone (.receiveBoundary n frame short t)).weaken
    fun m hm => hm.imp_right fun hm => eitherLine_eq_true.mpr (.inl hm)
  adopts := h.adopts.thenNone (.receiveBoundary n frame short t)
  ended := (h.ended.thenNone (.receiveBoundary n frame short t)).congr fun m => by
    simp only [framesOver, eitherLine]
    by_cases hm : m = hostLine
    · simp [hm, Ne.symm hp]
    · simp [hm]
  degrades := h.degrades.trans (.receiveBoundary hp frame short t)
  claims := h.claims.frame
  sends := h.sends.trans ((OnlySends.keptBySends t).reports.receiveBoundary rfl rfl n frame short (OnlySends.refl t))
    (Adopts.receiveBoundary n frame short t).length_le

theorem hostReceive (h : Bounds left met s t) (hn : met hostLine = false) :
    Bounds left (eitherLine met (· == hostLine)) s (hostBoundary t) where
  released := h.released.receive hn (by simp) (hostBoundary_stores t).1 (hostBoundary_stores t).2
  flags := ((h.flags.trans (.hostBoundary t)).congr (c := (left · = true)) (fun m => by simp) (fun _ => Iff.rfl)).weaken
    fun m hm => by
      obtain (hm | hm) | rfl := hm
      · exact .inl hm
      · exact .inr (eitherLine_eq_true.mpr (.inl hm))
      · exact .inr (by simp [eitherLine_eq_true])
  adopts := h.adopts.thenNone (.hostBoundary t)
  ended := (h.ended.trans (.hostBoundary t)).congr fun m => by
    simp only [framesOver, eitherLine]
    by_cases hm : m = hostLine <;> simp [hm]
  degrades := (h.degrades.trans (.same (t := Machine.hostBoundary t))).weaken fun m hm => by
    rw [eitherLine_eq_true] at hm ⊢
    exact hm.imp_right fun hm => (by cases hm)
  claims := h.claims.frame
  sends := h.sends.trans ((OnlySends.keptBySends t).reports.hostBoundary rfl rfl rfl (OnlySends.refl t))
    (Adopts.hostBoundary t).length_le

/-- Every named line has had both sides of its boundary. -/
theorem boundariesOf {bounds : Line → Bool} (h : Bounds bounds bounds s t) : BoundariesOf bounds s t :=
  ⟨h.released.holdsReleased, h.flags.suspensionTested (fun _ => Iff.rfl) fun _ hn => hn.elim id id,
    h.adopts.adoptionBy fun _ => Iff.rfl, h.ended.congr fun n => by simp [framesOver], h.degrades.spreads, h.claims, h.sends⟩

/-- The boundaries of one event, after the bit clocks before it, with its records taken in turn. -/
theorem inTurn {turns : List Nat} {f : State → State} {taken : Line → Bool} (k : BitsTaken taken s t)
    (h : Bounds left met (gathering t) (f (gathering t))) (hm : ∀ x, met x = false → taken x = false) :
    Bounds left met s (inTurn turns f t) := by
  have lines : t.lines = s.lines := k.same .lines
  have gathered : Released left met t (Machine.inTurn turns f t) := by
    obtain ⟨kept, released, other, own⟩ := h.released
    have readers : (Machine.inTurn turns f t).readers = (f (gathering t)).readers := by simp [gathering]
    have stores : (Machine.inTurn turns f t).stores = (f (gathering t)).stores := by simp [gathering]
    constructor <;> simpa only [readers, stores]
  exact {
    released := gathered.afterBits k hm
    flags := k.flags.afterNone h.flags.inTurn
    adopts := k.adopts.afterNone h.adopts.inTurn
    ended := k.framesEnded.afterNone h.ended.inTurn
    degrades := by
      have before : Degrades neither s (gathering t) :=
        .same (k.same .causes) (k.same .policies) fun m => by simp [gathering, lines]
      have after : Degrades neither (f (gathering t)) (Machine.inTurn turns f t) :=
        .same (by simp [gathering]) (by simp [gathering]) (by simp [gathering])
      exact ((before.trans h.degrades).trans after).congr fun n => by simp [eitherLine, neither]
    claims := by
      obtain ⟨placed, hd, hmem, hl⟩ := h.claims
      exact ⟨placed, hd, hmem, hl.congr (show (gathering t).arb = s.arb from k.same .arb).symm (by simp [gathering])⟩
    sends := ((OnlySends.keptBySends s).reports.same (OnlySends.refl s) (k.same .evq) (k.same .irq)).trans h.sends.inTurn
      h.adopts.inTurn.length_le }

end Bounds

end Sys2Proof.Machine
end

section
set_option Elab.async false -- one proof after the other, within the check's limit on threads
/-! Arrivals that are frame boundaries (R9, R14 to R17): the settling of obligations O19 and O20. -/

namespace Sys2Proof.Machine

/-! ### A store whose line has released its holds -/

theorem Store.release_receiving (n : Line) (st : Store) : (st.release n).receiving = st.receiving := by
  rw [Store.receiving, Store.release_filling]; rfl

theorem Store.release_newest (n : Line) {st : Store} (h : st.NextNumberIsNewest) : (st.release n).NextNumberIsNewest := by
  intro j g hj hg
  rw [Store.release_buffer] at hj hg
  obtain ⟨hr, -⟩ | ⟨-, hr⟩ := (st.buffers.get j).release_cases n <;> rw [hr] at hj hg
  · cases hj
  · exact h j g hj hg

/-- A frame that a buffer takes replaces all that a release leaves of it but the words behind the frame. -/
theorem Buffer.take_release (n : Line) (b : Buffer) (k : BitVec 32) (d : Bool) (f : List Word) :
    (b.release n).take k d f = b.take k d f := by
  obtain ⟨hr, -⟩ | ⟨-, hr⟩ := b.release_cases n <;> rw [hr] <;> rfl

/-- Nobody holds a buffer that has just taken a frame. -/
theorem Buffer.release_take (n : Line) (b : Buffer) (k : BitVec 32) (d : Bool) (f : List Word) :
    (b.take k d f).release n = b.take k d f := by
  have none : (b.take k d f).holders.get n = false := LineSet.get_empty n
  rw [Buffer.release, none, if_neg Bool.false_ne_true]

theorem acquire_receiving (n : Line) (s : State) : ((acquire n s).stores.get n).receiving = true := by
  rw [acquire_stores, if_pos rfl]
  cases hc : (s.stores.get n).choose with
  | none => simp [Store.receiving]
  | some i =>
    have filling : ((s.stores.get n).modify i fun b => b.become .filling).filling ≠ none := by
      rw [ne_eq, Store.filling_eq_none]
      intro h
      refine h i ?_
      rw [Store.modify_buffer, if_pos rfl]; rfl
    have some := Option.isSome_iff_ne_none.mpr filling
    simp only [Store.receiving, Bool.or_eq_true]
    exact .inl some

theorem receiveBoundary_receiving (n : Line) (frame : List Word) (short : Bool) (s : State) :
    ((receiveBoundary n frame short s).stores.get n).receiving = true := by
  unfold receiveBoundary; split
  · simp only [advanceWindow_frame]; exact acquire_receiving n _
  · exact acquire_receiving n s

/-- The counters of the receiver's own errors are no concern of a frame that completes. -/
theorem receiveBoundary_counter_sync (n : Line) (frame : List Word) (short : Bool) (s : State) {k : Fin 8}
    (hk : k = SYNC_ERRORS ∨ k = SYNC_LOSSES) : (receiveBoundary n frame short s).counter n k = s.counter n k := by
  have ne : k ≠ OVERRUNS ∧ k ≠ DAMAGED_FRAMES ∧ k ≠ SEQ_GAPS ∧ k ≠ CHECK_ERRORS := by
    obtain rfl | rfl := hk <;> decide
  by_cases hr : (s.stores.get n).receiving = true
  · rw [receiveBoundary_counter n frame short hr ne.1, report_counter, if_neg (by tauto)]
  · rw [receiveBoundary, if_neg hr, acquire_counter, if_neg fun h => ne.1 h.2.2]

/-! ### A boundary of a physical line at both its sides -/

theorem Bounds.boundary {r s : State} (h : Bounds neither neither r s) {n : Line} (hn : n ≠ hostLine) (frame : List Word)
    (short tx : Bool) : Bounds (· == n) (· == n) r (boundary n frame short tx s) := by
  have one : ∀ m, eitherLine neither (· == n) m = (m == n) := fun m => Bool.false_or _
  unfold Machine.boundary; split
  · exact ((h.transmit rfl).receive rfl hn frame short).congr one one
  · exact ((h.receive rfl hn frame short).transmit rfl).congr one one

/-- What a boundary of the line leaves of its own store and counters, and that it leaves the other lines. -/
structure BoundaryAt (n : Line) (frame : List Word) (short : Bool) (s t : State) : Prop where
  lines : ∀ m, t.lines.get m = if m = n ∧ (s.stores.get n).receiving = true then
    { s.lines.get n with rxRef := (judge (s.lines.get n) frame short).ref } else s.lines.get m
  counters : ∀ m, m ≠ n → t.counters.get m = s.counters.get m
  sync : ∀ k, k = SYNC_ERRORS ∨ k = SYNC_LOSSES → t.counter n k = s.counter n k
  windows : ∀ m, m ≠ n → t.windows.get m = s.windows.get m
  received : t.received = s.received
  frameCount : (t.stores.get n).frameCount
    = if (s.stores.get n).receiving then (s.stores.get n).frameCount + 1 else (s.stores.get n).frameCount
  receiving : (t.stores.get n).receiving = true
  takes : ∀ i, (s.stores.get n).filling = some i → (s.stores.get n).NextNumberIsNewest →
    (t.stores.get n).buffers.get i = ((s.stores.get n).buffers.get i).take ((s.stores.get n).frameCount + 1)
      (judge (s.lines.get n) frame short).damaged frame

theorem boundaryAt (n : Line) (frame : List Word) (short tx : Bool) (s : State) :
    BoundaryAt n frame short s (boundary n frame short tx s) := by
  have counters : ∀ t m, m ≠ n → (receiveBoundary n frame short t).counters.get m = t.counters.get m := fun t m hm =>
    Tab.ext_get fun k => receiveBoundary_counter_ne n m hm frame short t k
  have store : ∀ t, (transmitBoundary n t).stores.get n = (t.stores.get n).release n := transmitBoundary_stores n n
  have lines : ∀ t, (transmitBoundary n t).lines = t.lines := fun t => by simp
  have sameCounters : ∀ t, (transmitBoundary n t).counters = t.counters := fun t => by simp
  have sameWindows : ∀ t, (transmitBoundary n t).windows = t.windows := fun t => by simp
  have count : ∀ st : Store, (st.release n).frameCount = st.frameCount := fun _ => rfl
  have frames : ∀ t, ((receiveBoundary n frame short t).stores.get n).frameCount
      = if (t.stores.get n).receiving = true then (t.stores.get n).frameCount + 1 else (t.stores.get n).frameCount := fun t => by
    simp [receiveBoundary_frameCount]
  unfold boundary
  cases tx with
  | true =>
    rw [if_pos rfl]
    refine ⟨fun m => ?_, fun m hm => ?_, fun k hk => ?_, fun m hm => ?_, by simp, ?_, receiveBoundary_receiving n frame short _,
      fun i hi hnew => ?_⟩
    · rw [receiveBoundary_lines, store, Store.release_receiving, lines]
    · rw [counters _ m hm, sameCounters]
    · rw [receiveBoundary_counter_sync n frame short _ hk, counter_congr (sameCounters s)]
    · rw [receiveBoundary_windows n m hm, sameWindows]
    · rw [frames, store, Store.release_receiving, count]
    · rw [receiveBoundary_buffer frame short (by rw [store, Store.release_filling]; exact hi)
        (by rw [store]; exact Store.release_newest n hnew), store, lines, Store.release_buffer, Buffer.take_release, count]
  | false =>
    rw [if_neg Bool.false_ne_true]
    refine ⟨fun m => ?_, fun m hm => ?_, fun k hk => ?_, fun m hm => ?_, by simp, ?_,
      by rw [store, Store.release_receiving]; exact receiveBoundary_receiving n frame short s, fun i hi hnew => ?_⟩
    · rw [lines, receiveBoundary_lines]
    · rw [sameCounters, counters _ m hm]
    · rw [counter_congr (sameCounters _), receiveBoundary_counter_sync n frame short s hk]
    · rw [sameWindows, receiveBoundary_windows n m hm]
    · rw [store, count, frames]
    · rw [store, Store.release_buffer, receiveBoundary_buffer frame short hi hnew, Buffer.release_take]

end Sys2Proof.Machine
end

section
set_option Elab.async false -- one proof after the other, within the check's limit on threads
/-! Arrivals that are frame boundaries of their line (R14 to R17): the settling of obligation O20. -/

namespace Sys2Proof.Machine

/-! ### An arrival that is a boundary -/

/-- From `s` to `v` the arrival has set the receiver of line `n` and counted; the boundary is still to come. -/
structure ArrivalTaken (n : Line) (s v : State) : Prop where
  bounds : Bounds neither neither s v
  lines : ∀ m, m ≠ n → v.lines.get m = s.lines.get m
  counters : ∀ m, m ≠ n → v.counters.get m = s.counters.get m
  received : ∀ m, v.received.get m = if m = n then [] else s.received.get m
  stores : v.stores = s.stores
  windows : v.windows = s.windows

/-- What an arrival at a boundary of line `n` leaves, where `v` is the state just before the boundary. -/
structure ArrivedAtBoundary (n : Line) (frame : List Word) (short : Bool) (s v t : State) : Prop where
  bounds : BoundariesOf (· == n) s t
  lines : OnlyLine n s.lines t.lines
  counters : OnlyLine n s.counters t.counters
  readers : OnlyLine n s.readers t.readers
  windows : OnlyLine n s.windows t.windows
  received : OnlyLine n s.received t.received ∧ t.received.get n = []
  line : t.lines.get n = { v.lines.get n with rxRef := (t.lines.get n).rxRef }
  sync : ∀ k, k = SYNC_ERRORS ∨ k = SYNC_LOSSES → t.counter n k = v.counter n k
  frameCount : (t.stores.get n).frameCount
    = if (s.stores.get n).receiving then (s.stores.get n).frameCount + 1 else (s.stores.get n).frameCount
  receiving : (t.stores.get n).receiving = true
  takes : ∀ i, (s.stores.get n).filling = some i → (s.stores.get n).NextNumberIsNewest →
    ∃ b : Buffer, (t.stores.get n).buffers.get i = b.take ((s.stores.get n).frameCount + 1)
      (judge (v.lines.get n) frame short).damaged frame
  waits : n ∈ t.arb.loadQueue

theorem Store.SameFrames.nextNumberIsNewest {a b : Store} (h : a.SameFrames b) (hn : a.NextNumberIsNewest) :
    b.NextNumberIsNewest := fun j g hj hg => by
  rw [h.frameCount]
  exact hn j g (by rw [← h.state]; exact hj) (by rw [← h.number]; exact hg)

/-- An arrival that is a boundary, after the bit clocks before it and with its records taken in turn. -/
theorem arrivedAtBoundary {n : Line} (hn : n ≠ hostLine) {s u v t : State} (bits : BitsTaken (· == n) s u)
    (received : ∀ m, m ≠ n → u.received.get m = s.received.get m) (taken : ArrivalTaken n (gathering u) v) {frame : List Word}
    {short tx : Bool} {turns : List Nat} {f : State → State} (hf : f (gathering u) = boundary n frame short tx v)
    (ht : t = inTurn turns f u) : ArrivedAtBoundary n frame short s v t := by
  have bounds : Bounds (· == n) (· == n) s t :=
    ht ▸ Bounds.inTurn bits (hf ▸ taken.bounds.boundary hn frame short tx) fun _ => id
  have spec := boundaryAt n frame short tx v
  rw [← hf] at spec
  have lines : t.lines = (f (gathering u)).lines := by simp [ht, gathering]
  have counters : t.counters = (f (gathering u)).counters := by simp [ht, gathering]
  have windows : t.windows = (f (gathering u)).windows := by simp [ht, gathering]
  have stores : t.stores = (f (gathering u)).stores := by simp [ht, gathering]
  have bitsIn : t.received = (f (gathering u)).received := by simp [ht, gathering]
  have store : v.stores.get n = u.stores.get n := congrArg (·.get n) taken.stores
  have frames := bits.frames n
  refine ⟨bounds.boundariesOf, fun m hm => ?_, fun m hm => ?_, fun m hm => ?_, fun m hm => ?_, ⟨fun m hm => ?_, ?_⟩, ?_,
    fun k hk => ?_, ?_, ?_, fun i hi hnew => ⟨(v.stores.get n).buffers.get i, ?_⟩, ?_⟩
  · rw [lines, spec.lines, if_neg fun h => hm h.1, taken.lines m hm]
    exact congrArg (·.get m) (show u.lines = s.lines from bits.same .lines)
  · rw [counters, spec.counters m hm, taken.counters m hm]
    exact congrArg (·.get m) (show u.counters = s.counters from bits.same .counters)
  · exact bounds.released.kept m (beq_eq_false_iff_ne.mpr hm)
  · rw [windows, spec.windows m hm, taken.windows]
    exact congrArg (·.get m) (show u.windows = s.windows from bits.same .windows)
  · rw [bitsIn, spec.received, taken.received, if_neg hm]
    exact received m hm
  · rw [bitsIn, spec.received, taken.received, if_pos rfl]
  · rw [lines, spec.lines]; split <;> rfl
  · rw [counter_congr counters, spec.sync k hk]
  · rw [stores, spec.frameCount, store, frames.receiving, frames.frameCount]
  · rw [stores]; exact spec.receiving
  · rw [stores, spec.takes i (by rw [store, frames.filling]; exact hi) (by rw [store]; exact frames.nextNumberIsNewest hnew), store,
      frames.frameCount]
  · obtain ⟨placed, -, mem, loads, -⟩ := bounds.claims
    rw [loads]
    exact List.mem_append_right _ ((mem n).mpr (beq_self_eq_true n))

/-- The arrival arms the timer anew (R15 to R17). -/
theorem ArrivalTaken.rearm {n : Line} {s v : State} (e : Nat) (bounds : Bounds neither neither s v)
    (lines : ∀ m, m ≠ n → v.lines.get m = s.lines.get m) (counters : ∀ m, m ≠ n → v.counters.get m = s.counters.get m)
    (received : v.received = s.received) (stores : v.stores = s.stores) (windows : v.windows = s.windows) :
    ArrivalTaken n s (rearm n e v) where
  bounds := by
    refine bounds.thenReports ((OnlySends.keptBySends v).reports.same (OnlySends.refl v) (by simp) (by simp))
      ((Reports.kept v).same (Reports.refl v) (by simp) (by simp)) (hc := fun m => ?_)
    rw [rearm_lines]; split
    · next h => rw [h]
    · rfl
  lines m hm := by rw [rearm_lines, if_neg hm, lines m hm]
  counters m hm := by simp [counters m hm]
  received m := by simp [Machine.rearm, beginFrame, Tab.get_put, received]
  stores := by simp [stores]
  windows := by simp [windows]

/-! ### Arrivals in LOCKED -/

section
variable (n : Line) (bits : List Bool) (s : State)

/-- The arrival is an early one (R16). -/
def arrivesEarly : Bool := decide (bits.length < (s.lines.get n).config.slotCount * 16)

/-- The state in which the boundary of an arrival in LOCKED falls: its sync error counted, the timer armed on it. -/
def lockedArrivalTaken : State := rearm n (if arrivesEarly n bits s then 1 else 0)
  (if bits.length = (s.lines.get n).config.slotCount * 16 then s else countUp n SYNC_ERRORS s)

/-- The words of the frame that an arrival in LOCKED ends (R42). -/
def arrivedFrame : List Word := if arrivesEarly n bits s then shortFrame (s.lines.get n).config.slotCount bits
  else fullFrame (s.lines.get n).config.slotCount bits

end

theorem lockedArrivalTaken_taken (n : Line) (bits : List Bool) (s : State) : ArrivalTaken n s (lockedArrivalTaken n bits s) := by
  unfold lockedArrivalTaken
  by_cases onTime : bits.length = (s.lines.get n).config.slotCount * 16
  · rw [if_pos onTime]
    exact .rearm _ (.refl s) (fun _ _ => rfl) (fun _ _ => rfl) rfl rfl rfl
  · rw [if_neg onTime]
    refine .rearm _ ((Bounds.refl s).thenReports ((OnlySends.keptBySends s).reports.same (OnlySends.refl s) (by simp) (by simp))
      ((Reports.kept s).same (Reports.refl s) (by simp) (by simp))) (by simp) (fun m hm => ?_) (by simp) (by simp) (by simp)
    refine Tab.ext_get fun k => ?_
    have := countUp_counter n m SYNC_ERRORS k s
    rwa [if_neg fun h => hm h.1] at this

theorem lockedArrivalTaken_line (n : Line) (bits : List Bool) (s : State) : (lockedArrivalTaken n bits s).lines.get n
    = { s.lines.get n with earlyCount := if arrivesEarly n bits s then 1 else 0, timerArmed := true } := by
  rw [lockedArrivalTaken, rearm_lines, if_pos rfl]; split <;> simp

theorem lockedArrivalTaken_counter (n : Line) (bits : List Bool) (s : State) (k : Fin 8) :
    (lockedArrivalTaken n bits s).counter n k
      = if k = SYNC_ERRORS ∧ bits.length ≠ (s.lines.get n).config.slotCount * 16 then satInc (s.counter n k)
        else s.counter n k := by
  have same : ∀ t : State, (rearm n (if arrivesEarly n bits s then 1 else 0) t).counter n k = t.counter n k :=
    fun t => counter_congr (by simp) n k
  rw [lockedArrivalTaken, same]
  split
  · next h => simp [h]
  · next h =>
    rw [countUp_counter]
    by_cases hk : k = SYNC_ERRORS
    · subst hk; simp [h]
    · simp [hk]

theorem judgeArrival_of_boundary {n : Line} {s : State} (hr : (s.lines.get n).receiver = .locked) {bits : List Bool}
    (hlen : bits.length < (s.lines.get n).config.slotCount * 16 + 16)
    (he : arrivesEarly n bits s = false ∨ (s.lines.get n).earlyCount = 0) (tx : Bool) :
    judgeArrival n bits tx s
      = boundary n (arrivedFrame n bits s) (arrivesEarly n bits s) tx (lockedArrivalTaken n bits s) := by
  have frame : (s.lines.get n).config.frameBits = (s.lines.get n).config.slotCount * 16 := rfl
  have margin : Config.expiryMargin = 16 := rfl
  simp only [judgeArrival, hr]
  rw [if_neg (by omega)]
  simp only [lockedArrival, arrivedFrame, lockedArrivalTaken]
  obtain hlt | heq | hgt := Nat.lt_trichotomy bits.length ((s.lines.get n).config.slotCount * 16)
  · have early : arrivesEarly n bits s = true := decide_eq_true hlt
    have first := he.resolve_left (by rw [early]; decide)
    rw [if_neg (by omega), if_neg (by omega), if_pos first, if_neg hlt.ne, early]
    simp only [if_true]
  · have early : arrivesEarly n bits s = false := decide_eq_false (by omega)
    rw [if_pos (heq.trans frame.symm), if_pos heq, early]
    simp only [Bool.false_eq_true, if_false]
  · have early : arrivesEarly n bits s = false := decide_eq_false (by omega)
    rw [if_neg (by omega), if_pos (by omega), if_neg hgt.ne', early]
    simp only [Bool.false_eq_true, if_false]

theorem length_arrivedFrame (n : Line) (bits : List Bool) (s : State) :
    (arrivedFrame n bits s).length = (s.lines.get n).config.slotCount := by
  unfold arrivedFrame; split <;> simp

/-- Settles O20: on time, late or early for the first time, an arrival in LOCKED is a boundary. -/
theorem arrivalsInLockedAreBoundaries : Obligations.ArrivalsInLockedAreBoundaries := by
  intro p samples txFirst turns s hext hr ha bits short hlen he frame
  obtain ⟨-, received⟩ := bitClocks_received p.line samples s
  have taken := bitsTaken p.line samples s
  have sampled : (bitClocks p.line samples s).received.get p.line = bits := bitClocks_received_of_armed ha samples
  have arrival := syncArrival_of_judged hext samples txFirst turns
    (g := fun t => boundary p.line (arrivedFrame p.line bits t) (arrivesEarly p.line bits t) txFirst
      (lockedArrivalTaken p.line bits t))
    (by rw [sampled]; exact judgeArrival_of_boundary (by simpa [gathering] using hr) (by simpa [gathering] using hlen)
          (by simpa [gathering, arrivesEarly, short] using he) txFirst)
  have only := syncArrival_onlyChanges p.line samples txFirst turns s
  have step : exec (.syncArrival p samples ⟨txFirst, turns⟩) s = .next (syncArrival p.line samples txFirst turns s) := rfl
  generalize bitClocks p.line samples s = u at *
  generalize syncArrival p.line samples txFirst turns s = t at *
  have lines : (gathering u).lines = s.lines := taken.same .lines
  have counters : (gathering u).counters = s.counters := taken.same .counters
  have shortIs : arrivesEarly p.line bits (gathering u) = short := by rw [arrivesEarly, lines]
  have frameIs : arrivedFrame p.line bits (gathering u) = frame := by rw [arrivedFrame, shortIs, lines]
  have spec := arrivedAtBoundary (physLine_ne_host p) taken received (lockedArrivalTaken_taken p.line bits (gathering u)) rfl arrival
  have counter := lockedArrivalTaken_counter p.line bits (gathering u)
  have line := lockedArrivalTaken_line p.line bits (gathering u)
  rw [frameIs, shortIs] at spec
  rw [shortIs] at line
  simp only [counter_congr counters, lines] at counter
  rw [lines] at line
  generalize lockedArrivalTaken p.line bits (gathering u) = v at *
  have self := spec.line
  rw [line] at self
  refine ⟨t, step, only, spec.lines, spec.counters, spec.readers, spec.windows, spec.received.1, spec.received.2,
    by rw [self]; exact hr, by rw [self], by rw [self], by rw [self], by rw [self], by rw [self], ?_, ?_, spec.frameCount,
    fun i hi hnew => ?_, spec.waits, spec.receiving, spec.bounds⟩
  · rw [spec.sync _ (.inl rfl), counter]; simp
  · rw [spec.sync _ (.inr rfl), counter, if_neg fun h => absurd h.1 (by decide)]
  · obtain ⟨b, takes⟩ := spec.takes i hi hnew
    have length : frame.length = (s.lines.get p.line).config.slotCount := by rw [← frameIs, length_arrivedFrame, lines]
    rw [takes, line]
    exact ⟨rfl, rfl, by simp only [Buffer.take, judge_eq], length, fun k hk => getD_overwrite _ (by rw [length]; exact hk)⟩

end Sys2Proof.Machine
end

section
set_option Elab.async false -- one proof after the other, within the check's limit on threads
/-! Arrivals in VERIFY and in LOST (R14, R19): the settling of obligation O19. -/

namespace Sys2Proof.Machine

/-! ### Arrivals that set the receiver alone -/

/-- The arrival makes the line's unit `l` and begins a frame; nothing else changes. -/
def takeArrival (n : Line) (l : LineUnit) (s : State) : State := beginFrame n (s.withLines (s.lines.put n l))

theorem takeArrival_onlyChanges (n : Line) (l : LineUnit) (s : State) : OnlyChanges [.lines, .received] s (takeArrival n l s) := by
  intro f hf
  cases f
  case lines => simp at hf
  case received => simp at hf
  all_goals rfl

theorem takeArrival_lines (n m : Line) (l : LineUnit) (s : State) :
    (takeArrival n l s).lines.get m = if m = n then l else s.lines.get m := Tab.get_put ..

theorem takeArrival_received (n m : Line) (l : LineUnit) (s : State) :
    (takeArrival n l s).received.get m = if m = n then [] else s.received.get m := Tab.get_put ..

/-- An expiry in VERIFY is made good by the arrival, which is the first after it (R14). -/
theorem toVerify_hunt (n : Line) (s : State) : toVerify n (enterReceiver n .hunt s)
    = takeArrival n { (s.lines.get n).enter .hunt with receiver := .verify, verifyCount := 1, timerArmed := true } s := by
  have own : (enterReceiver n .hunt s).lines.get n = (s.lines.get n).enter .hunt := by rw [enterReceiver_lines, if_pos rfl]
  have lines : ∀ l, (enterReceiver n .hunt s).lines.put n l = s.lines.put n l := fun l => Tab.ext_get fun m => by
    rw [Tab.get_put, Tab.get_put, enterReceiver_lines]
    split <;> rfl
  rw [toVerify, own, lines]
  rfl

section
variable {p : PhysLine} {s : State} (ht : (s.lines.get p.line).config.timing = .external) (samples : List Bool) (tx : Bool)
  (turns : List Nat)
include ht

theorem syncArrival_of_taken {l : LineUnit} (h : judgeArrival p.line ((bitClocks p.line samples s).received.get p.line) tx
      (gathering (bitClocks p.line samples s)) = takeArrival p.line l (gathering (bitClocks p.line samples s))) :
    syncArrival p.line samples tx turns s = takeArrival p.line l (bitClocks p.line samples s) := by
  rw [syncArrival_of_judged ht samples tx turns h]
  exact inTurn_quiet _ _ _ rfl

/-- Such an arrival at a line that does not run leaves all but its receiver. -/
theorem arrival_of_taken (hrun : s.running p.line = false) {l : LineUnit}
    (h : judgeArrival p.line ((bitClocks p.line samples s).received.get p.line) tx
      (gathering (bitClocks p.line samples s)) = takeArrival p.line l (gathering (bitClocks p.line samples s))) :
    ∃ t, exec (.syncArrival p samples ⟨tx, turns⟩) s = .next t ∧ OnlyChanges [.lines, .received] s t
      ∧ OnlyLine p.line s.lines t.lines ∧ OnlyLine p.line s.received t.received ∧ t.received.get p.line = []
      ∧ t.lines.get p.line = l := by
  have only := bitClocks_onlyChanges_of_not_running hrun samples
  obtain ⟨-, received⟩ := bitClocks_received p.line samples s
  have lines : (bitClocks p.line samples s).lines = s.lines := only .lines (by simp)
  refine ⟨_, congrArg Host.Outcome.next (syncArrival_of_taken ht samples tx turns h),
    only.trans (takeArrival_onlyChanges _ _ _) (by simp), fun m hm => ?_, fun m hm => ?_, ?_, ?_⟩
  · rw [takeArrival_lines, if_neg hm, lines]
  · rw [takeArrival_received, if_neg hm, received m hm]
  · rw [takeArrival_received, if_pos rfl]
  · rw [takeArrival_lines, if_pos rfl]

end

/-- A line that neither runs nor waits for an expiry counts no bit clocks. -/
theorem bitClocks_of_not_counting {n : Line} {s : State} (h : s.counting n = false) (bits : List Bool) :
    bitClocks n bits s = s :=
  foldl_invariant (· = s) _ (fun t b ht => by rw [ht, bitClock, if_neg (by rw [h]; decide)]) bits s rfl

theorem not_running_of_verify {n : Line} {s : State} (h : (s.lines.get n).receiver = .verify) : s.running n = false := by
  simp [State.running, LineUnit.running, h]

theorem not_running_of_lost {n : Line} {s : State} (h : (s.lines.get n).receiver = .lost) : s.running n = false := by
  simp [State.running, LineUnit.running, h]

/-! ### Arrivals in VERIFY -/

section
variable {n : Line} {s : State} (hr : (s.lines.get n).receiver = .verify) {bits : List Bool} (tx : Bool)
include hr

theorem judgeArrival_of_verify (hlen : bits.length < (s.lines.get n).config.slotCount * 16 + 16) :
    judgeArrival n bits tx s = verifyArrival n bits tx s := by
  simp only [judgeArrival, hr]
  exact if_neg (Nat.not_le.mpr hlen)

theorem judgeArrival_of_second (hlen : bits.length = (s.lines.get n).config.slotCount * 16)
    (hv : (s.lines.get n).verifyCount ≠ 2) :
    judgeArrival n bits tx s = takeArrival n { s.lines.get n with verifyCount := 2, timerArmed := true } s := by
  rw [judgeArrival_of_verify hr tx (by omega), verifyArrival]
  exact (if_pos hlen).trans (if_neg hv)

theorem judgeArrival_of_third (hlen : bits.length = (s.lines.get n).config.slotCount * 16)
    (hv : (s.lines.get n).verifyCount = 2) :
    judgeArrival n bits tx s = boundary n [] false tx (rearm n 0 (lock n s)) := by
  rw [judgeArrival_of_verify hr tx (by omega), verifyArrival]
  exact (if_pos hlen).trans (if_pos hv)

/-- An arrival that is not on time is the new reference, past the 16th bit clock as the first after the expiry (R14, log 4). -/
theorem judgeArrival_of_off_time (hlen : bits.length ≠ (s.lines.get n).config.slotCount * 16) :
    ∃ early, judgeArrival n bits tx s
      = takeArrival n { s.lines.get n with receiver := .verify, verifyCount := 1, earlyCount := early, timerArmed := true } s := by
  by_cases hlt : bits.length < (s.lines.get n).config.slotCount * 16 + 16
  · refine ⟨(s.lines.get n).earlyCount, ?_⟩
    rw [judgeArrival_of_verify hr tx hlt, verifyArrival]
    exact if_neg hlen
  · refine ⟨0, ?_⟩
    have expired : judgeArrival n bits tx s = firstArrival n (enterReceiver n .hunt s) := by
      simp only [judgeArrival, hr, expire]
      exact if_pos (Nat.not_lt.mp hlt)
    have hunts : ((enterReceiver n .hunt s).lines.get n).receiver = .hunt := by rw [enterReceiver_lines, if_pos rfl]; rfl
    rw [expired]
    simp only [firstArrival, hunts]
    rw [toVerify_hunt]
    rfl

end

theorem judgeArrival_of_lost {n : Line} {s : State} (hr : (s.lines.get n).receiver = .lost) (bits : List Bool) (tx : Bool) :
    judgeArrival n bits tx s = if (s.lines.get n).config.autoRehunt then toVerify n s else s := by
  simp only [judgeArrival, hr]
  exact firstArrival_of_lost hr

/-! ### The lock -/

theorem lockTaken (n : Line) (s : State) : ArrivalTaken n s (rearm n 0 (lock n s)) := by
  refine .rearm 0 ((Bounds.refl s).thenReports ((OnlySends.keptBySends s).reports.lock rfl n (OnlySends.refl s))
    ((Reports.kept s).lock rfl n (Reports.refl s)) (hc := fun m => ?_)) (fun m hm => ?_) (by simp) (by simp) (by simp) (by simp)
  · rw [lock_lines]; split
    · next h => rw [h]
    · rfl
  · rw [lock_lines, if_neg hm]

/-- An acquisition sends an OVERRUN at most, and nothing where a buffer can be taken. -/
theorem acquire_sends (n : Line) {s : State} (hroom : s.evq.records.length < 32) : ∃ sent : List EventRecord,
    (acquire n s).evq.records = s.evq.records ++ sent ∧ sent.length ≤ 1 ∧ ((s.stores.get n).choose ≠ none → sent = []) := by
  by_cases h : (s.stores.get n).choose = none
  · obtain ⟨overruns, hlen, -, records⟩ := acquire_records n hroom
    exact ⟨overruns, records, hlen, fun hc => absurd h hc⟩
  · obtain ⟨i, hi⟩ := Option.ne_none_iff_exists'.mp h
    have same : (acquire n s).evq = s.evq := by rw [acquire, hi]; rfl
    exact ⟨[], by rw [same, List.append_nil], by simp, fun _ => rfl⟩

/-- The transmit side of a boundary sends a COMMIT_DONE at most, and nothing where no adoption is due. -/
theorem transmitBoundary_sends (n : Line) (s : State) : ∃ sent : List EventRecord,
    (transmitBoundary n s).evq.records = s.evq.records ++ sent ∧ sent.length ≤ 1
      ∧ (s.bc.adoptionSet.get n = false → sent = []) := by
  have evq : (transmitBoundary n s).evq = (adopt n (releaseHolds n s)).evq := by simp [transmitBoundary]
  obtain ⟨sent, records, -⟩ := (Adopts.transmitBoundary n s).sends
  refine ⟨sent, records, ?_, fun h => ?_⟩
  · have length : (adopt n (releaseHolds n s)).evq.records.length ≤ s.evq.records.length + 1 := by
      simpa using (CommitsOnce.adopt n (releaseHolds n s)).length_le
    rw [← evq, records, List.length_append] at length
    omega
  · rw [evq, adopt_out (by simpa using h)] at records
    simpa using records

/-- The records of a line's first boundary: an OVERRUN where no buffer can be taken, and a COMMIT_DONE where its adoption is the
last one. -/
theorem firstBoundary_sends {n : Line} {s : State} (hi : (s.stores.get n).receiving = false) (hroom : s.evq.records.length ≤ 30)
    (frame : List Word) (short tx : Bool) : ∃ sent, (boundary n frame short tx s).evq.records = s.evq.records ++ sent
      ∧ sent.length ≤ 2
      ∧ ((if tx then (s.stores.get n).release n else s.stores.get n).choose ≠ none → s.bc.adoptionSet.get n = false →
        sent = []) := by
  have acquires : ∀ t, (t.stores.get n).receiving = false → receiveBoundary n frame short t = acquire n t := fun t h => by
    rw [receiveBoundary, if_neg (by rw [h]; decide)]
  have released : (transmitBoundary n s).stores.get n = (s.stores.get n).release n := transmitBoundary_stores n n s
  unfold boundary
  cases tx with
  | true =>
    obtain ⟨done, records, hl, hd⟩ := transmitBoundary_sends n s
    obtain ⟨overruns, records', hl', ho⟩ := acquire_sends n (s := transmitBoundary n s) (by
      rw [records, List.length_append]; omega)
    rw [if_pos rfl, acquires _ (by rw [released, Store.release_receiving]; exact hi), records', records, List.append_assoc]
    refine ⟨_, rfl, by rw [List.length_append]; omega, fun hc hm => ?_⟩
    rw [released] at ho
    rw [hd hm, ho hc, List.append_nil]
  | false =>
    obtain ⟨overruns, records, hl, ho⟩ := acquire_sends n (s := s) (by omega)
    obtain ⟨done, records', hl', hd⟩ := transmitBoundary_sends n (acquire n s)
    rw [if_neg Bool.false_ne_true, acquires s hi, records', records, List.append_assoc]
    refine ⟨_, rfl, by rw [List.length_append]; omega, fun hc hm => ?_⟩
    rw [hd (by simpa using hm), ho hc, List.append_nil]

/-- The records of the event in which a line locks, with its SYNC among them (R14). -/
theorem lock_sends {n : Line} (hn : n ≠ hostLine) {u : State} (hi : (u.stores.get n).receiving = false)
    (hroom : u.evq.records.length ≤ 29) (frame : List Word) (short tx : Bool) (turns : List Nat) :
    ∃ sent, (inTurn turns (fun t => boundary n frame short tx (rearm n 0 (lock n t))) u).evq.records = u.evq.records ++ sent
      ∧ (⟨.sync, n, 0, 1, 3, u.stampOf n⟩ : EventRecord) ∈ sent
      ∧ ((if tx then (u.stores.get n).release n else u.stores.get n).choose ≠ none → u.bc.adoptionSet.get n = false →
        sent = [⟨.sync, n, 0, 1, 3, u.stampOf n⟩]) := by
  have stores : (rearm n 0 (lock n (gathering u))).stores = u.stores := by simp [gathering]
  have bc : (rearm n 0 (lock n (gathering u))).bc = u.bc := by simp [gathering]
  have locked : (rearm n 0 (lock n (gathering u))).evq.records = [⟨.sync, n, 0, 1, 3, u.stampOf n⟩] := by
    simp only [rearm_frame, lock, if_neg hn]
    rw [sendEvent_records .sync n 3 (by simp [gathering])]
    rfl
  obtain ⟨rest, records, hl, alone⟩ := firstBoundary_sends (s := rearm n 0 (lock n (gathering u))) (by rw [stores]; exact hi)
    (by rw [locked]; simp) frame short tx
  rw [locked] at records
  rw [stores, bc] at alone
  generalize hrs : [(⟨.sync, n, 0, 1, 3, u.stampOf n⟩ : EventRecord)] ++ rest = rs at records
  have perm := taken_perm turns rs
  have length : rs.length ≤ 3 := by rw [← hrs, List.length_append]; simp; omega
  unfold gathering at records
  refine ⟨interleave turns (chains rs), ?_, perm.mem_iff.mpr (by rw [← hrs]; simp), fun hc hm => ?_⟩
  · rw [inTurn_room turns _ u (by rw [records]; simp only [Config.eventCapacity]; omega), records]; rfl
  · rw [← hrs, alone hc hm, List.append_nil] at perm ⊢
    exact List.perm_singleton.mp perm

/-- Settles O19: in VERIFY an arrival raises the count, locks the line or is the new reference; in LOST the receiver's
configuration decides. -/
theorem arrivalsInVerifyAndLost : Obligations.ArrivalsInVerifyAndLost := by
  intro p samples txFirst turns s hext clocks
  have taken := bitsTaken p.line samples s
  have lines : (gathering (bitClocks p.line samples s)).lines = s.lines := taken.same .lines
  refine ⟨fun hr ha => ?verify, fun hr ha => ?lost⟩
  case verify =>
    have run := not_running_of_verify hr
    have sampled : ((bitClocks p.line samples s).received.get p.line).length = clocks := by
      rw [bitClocks_received_of_armed ha, List.length_append]
    refine ⟨fun hlen hv => ?_, fun hlen hv => ?_, fun hlen => ?_⟩
    · have judged := judgeArrival_of_second (s := gathering (bitClocks p.line samples s)) (by rw [lines]; exact hr) txFirst
        (sampled.trans (by rw [hlen, lines])) (by rw [lines]; exact hv)
      rw [lines] at judged
      exact arrival_of_taken hext samples txFirst turns run judged
    · have arrival := syncArrival_of_judged hext samples txFirst turns
        (g := fun t => boundary p.line [] false txFirst (rearm p.line 0 (lock p.line t)))
        (judgeArrival_of_third (by rw [lines]; exact hr) txFirst (sampled.trans (by rw [hlen, lines])) (by rw [lines]; exact hv))
      obtain ⟨-, -, hstores⟩ := bitClocks_stores p.line samples s
      obtain ⟨-, received⟩ := bitClocks_received p.line samples s
      have only := syncArrival_onlyChanges p.line samples txFirst turns s
      have step : exec (.syncArrival p samples ⟨txFirst, turns⟩) s = .next (syncArrival p.line samples txFirst turns s) := rfl
      have stores : (bitClocks p.line samples s).stores = s.stores := hstores run
      generalize bitClocks p.line samples s = u at *
      have evq : u.evq = s.evq := taken.same .evq
      have bc : u.bc = s.bc := taken.same .bc
      have stamp : u.stampOf p.line = s.stampOf p.line := by rw [State.stampOf, State.stampOf, stores]
      have spec := arrivedAtBoundary (physLine_ne_host p) taken received (lockTaken p.line (gathering u)) rfl arrival
      have line : (rearm p.line 0 (lock p.line (gathering u))).lines.get p.line
          = { s.lines.get p.line with
            receiver := .locked, verifyCount := 0, earlyCount := 0, rxRef := none, timerArmed := true } := by
        rw [rearm_lines, if_pos rfl, lock_lines, if_pos rfl, lines]
      have self := spec.line
      rw [line] at self
      refine ⟨_, step, only, spec.lines, spec.received.1, spec.received.2, spec.counters, spec.readers, spec.windows, spec.bounds,
        spec.receiving, by rw [self], by rw [self], by rw [self], by rw [self], fun hi hroom => ?_, spec.waits⟩
      have sends := lock_sends (physLine_ne_host p) (u := u) (by rw [stores]; exact hi) (by rw [evq]; exact hroom) [] false
        txFirst turns
      rw [← arrival, evq, stamp, stores, bc] at sends
      exact sends
    · obtain ⟨early, judged⟩ := judgeArrival_of_off_time (s := gathering (bitClocks p.line samples s)) (by rw [lines]; exact hr)
        txFirst (bits := (bitClocks p.line samples s).received.get p.line) (by rw [sampled, lines]; exact hlen)
      rw [lines] at judged
      obtain ⟨t, step, only, onlyLine, onlyBits, none, line⟩ := arrival_of_taken hext samples txFirst turns run judged
      exact ⟨t, step, only, onlyLine, onlyBits, none, by rw [line], by rw [line], by rw [line], by rw [line], by rw [line]⟩
  case lost =>
    have run := not_running_of_lost hr
    have judged := judgeArrival_of_lost (s := gathering (bitClocks p.line samples s)) (by rw [lines]; exact hr)
      ((bitClocks p.line samples s).received.get p.line) txFirst
    refine ⟨fun hre => ?_, fun hre => ?_⟩
    · rw [lines, if_pos hre] at judged
      have := arrival_of_taken hext samples txFirst turns run (judged.trans (rfl : toVerify _ _ = takeArrival _ _ _))
      rw [lines] at this
      exact this
    · rw [lines, hre, if_neg Bool.false_ne_true] at judged
      have still : syncArrival p.line samples txFirst turns s = bitClocks p.line samples s := by
        rw [syncArrival_eq hext]
        exact inTurn_still _ _ _ judged
      rw [bitClocks_of_not_counting (by simp [State.counting, ha, run])] at still
      exact congrArg Host.Outcome.next still

end Sys2Proof.Machine
end

section
set_option Elab.async false -- one proof after the other, within the check's limit on threads
/-! A frame start side by side (R6, R9): the line units, the counters, the received bits and the stores of the lines, while some
lines have been reached and some of their sides have had their boundary. -/

namespace Sys2Proof.Machine

/-! ### A line is reached (R9) -/

/-- The unit of a line that a frame start has reached: one in HUNT is LOCKED. -/
def LineUnit.reached (l : LineUnit) : LineUnit :=
  if l.receiver = .hunt then { l with receiver := .locked, verifyCount := 0, earlyCount := 0, rxRef := none } else l

/-- A frame start reaches the line, before the boundary of one of its sides. -/
def reachLine (n : Line) (s : State) : State := if (s.lines.get n).receiver = .hunt then lock n s else s

theorem takePart_eq (p : Part) (s : State) : takePart p s = match p.side with
    | .receive => receivePart p.line (reachLine p.line s)
    | .transmit => transmitBoundary p.line (reachLine p.line s) := rfl

theorem receivePart_of_phys {n : Line} (hn : n ≠ hostLine) (s : State) : receivePart n s
    = beginFrame n (receiveBoundary n (fullFrame (s.lines.get n).config.slotCount (s.received.get n)) false s) := if_neg hn

theorem receivePart_host (s : State) : receivePart hostLine s = hostBoundary s := if_pos rfl

@[simp] theorem reachLine_frame (n : Line) (s : State) :
    (reachLine n s).gens = s.gens ∧ (reachLine n s).stores = s.stores ∧ (reachLine n s).readers = s.readers
    ∧ (reachLine n s).bc = s.bc ∧ (reachLine n s).arb = s.arb ∧ (reachLine n s).txas = s.txas
    ∧ (reachLine n s).host = s.host ∧ (reachLine n s).counters = s.counters ∧ (reachLine n s).windows = s.windows
    ∧ (reachLine n s).causes = s.causes ∧ (reachLine n s).policies = s.policies
    ∧ (reachLine n s).received = s.received := by
  unfold reachLine
  split <;> simp

theorem reachLine_lines (n m : Line) (s : State) :
    (reachLine n s).lines.get m = if m = n then (s.lines.get n).reached else s.lines.get m := by
  unfold reachLine LineUnit.reached
  split
  · exact lock_lines n m s
  · split
    · next h => rw [h]
    · rfl

theorem reachLine_config (n m : Line) (s : State) : ((reachLine n s).lines.get m).config = (s.lines.get m).config := by
  rw [reachLine_lines]
  split
  · next h => rw [h, LineUnit.reached]; split <;> rfl
  · rfl

namespace LineUnit

theorem reached_receiver (l : LineUnit) : l.reached.receiver ≠ .hunt := by
  unfold reached; split
  · simp
  · assumption

theorem reached_of_ne {l : LineUnit} (h : l.receiver ≠ .hunt) : l.reached = l := if_neg h

theorem reached_config (l : LineUnit) : l.reached.config = l.config ∧ l.reached.txCounter = l.txCounter
    ∧ l.reached.enabled = l.enabled := by
  unfold reached; split <;> exact ⟨rfl, rfl, rfl⟩

end LineUnit

/-! ### Line units, counters, windows and bits -/

/-- The line units and what goes with them, while a frame start has reached the lines of `opened` and those of `met` have had the
receive side of their boundary. -/
structure UnitsReached (opened met : Line → Bool) (b t : State) : Prop where
  unit : ∀ m, t.lines.get m = { (if opened m then (b.lines.get m).reached else b.lines.get m) with
    rxRef := if met m then (t.lines.get m).rxRef
      else (if opened m then (b.lines.get m).reached else b.lines.get m).rxRef }
  counters : ∀ m, met m = false → t.counters.get m = b.counters.get m
  windows : ∀ m, met m = false → t.windows.get m = b.windows.get m
  received : ∀ m, t.received.get m = if met m = true ∧ m ≠ hostLine then [] else b.received.get m

namespace UnitsReached

variable {opened met : Line → Bool} {b t u : State}

theorem refl (b : State) : UnitsReached neither neither b b :=
  ⟨fun _ => by simp [neither], fun _ _ => rfl, fun _ _ => rfl, fun m => by simp [neither]⟩

theorem frame (h : UnitsReached opened met b t) (hl : u.lines = t.lines := by simp) (hc : u.counters = t.counters := by simp)
    (hw : u.windows = t.windows := by simp) (hr : u.received = t.received := by simp) : UnitsReached opened met b u := by
  obtain ⟨unit, counters, windows, received⟩ := h
  constructor <;> simpa only [hl, hc, hw, hr]

/-- The unit of a line before the receive side of its boundary. -/
theorem unit_of_waits (h : UnitsReached opened met b t) {m : Line} (hm : met m = false) :
    t.lines.get m = if opened m then (b.lines.get m).reached else b.lines.get m := by
  rw [h.unit, hm]; rfl

theorem receiver (h : UnitsReached opened met b t) {m : Line} (ho : opened m = true) : (t.lines.get m).receiver ≠ .hunt := by
  rw [h.unit, if_pos ho]; exact LineUnit.reached_receiver _

/-- A line that a frame start has reached is not locked again. -/
theorem reachLine_of_opened (h : UnitsReached opened met b t) {n : Line} (hn : opened n = true) : reachLine n t = t :=
  if_neg (h.receiver hn)

theorem opens (h : UnitsReached opened met b t) {n : Line} (hn : opened n = false) (hm : met n = false) :
    UnitsReached (eitherLine opened (· == n)) met b (reachLine n t) where
  unit m := by
    rw [reachLine_lines]
    by_cases hmn : m = n
    · subst hmn
      rw [if_pos rfl, h.unit_of_waits hm, hn]
      simp [eitherLine, hm]
    · have other : eitherLine opened (· == n) m = opened m := by simp [eitherLine, hmn]
      rw [if_neg hmn, other]; exact h.unit m
  counters m hm := by rw [show (reachLine n t).counters = t.counters by simp]; exact h.counters m hm
  windows m hm := by rw [show (reachLine n t).windows = t.windows by simp]; exact h.windows m hm
  received m := by rw [show (reachLine n t).received = t.received by simp]; exact h.received m

/-- The receive side of a line's boundary. -/
theorem receive (h : UnitsReached opened met b t) {n : Line}
    (hl : ∀ m, u.lines.get m = if m = n then { t.lines.get n with rxRef := (u.lines.get n).rxRef } else t.lines.get m)
    (hc : ∀ m, m ≠ n → u.counters.get m = t.counters.get m) (hw : ∀ m, m ≠ n → u.windows.get m = t.windows.get m)
    (hr : ∀ m, u.received.get m = if m = n ∧ n ≠ hostLine then [] else t.received.get m) :
    UnitsReached opened (eitherLine met (· == n)) b u where
  unit m := by
    by_cases hmn : m = n
    · subst hmn
      have self : eitherLine met (· == m) m = true := by simp [eitherLine]
      rw [self, if_pos rfl, hl, if_pos rfl]
      have := h.unit m
      generalize t.lines.get m = l at *
      generalize (if opened m = true then (b.lines.get m).reached else b.lines.get m) = l' at *
      rw [this]
    · have other : eitherLine met (· == n) m = met m := by simp [eitherLine, hmn]
      rw [other, hl, if_neg hmn]; exact h.unit m
  counters m hm := by
    obtain ⟨hm, hmn⟩ := Bool.or_eq_false_iff.mp hm
    rw [hc m (beq_eq_false_iff_ne.mp hmn), h.counters m hm]
  windows m hm := by
    obtain ⟨hm, hmn⟩ := Bool.or_eq_false_iff.mp hm
    rw [hw m (beq_eq_false_iff_ne.mp hmn), h.windows m hm]
  received m := by
    rw [hr, h.received]
    by_cases hmn : m = n
    · subst hmn; by_cases hh : m = hostLine <;> simp [eitherLine, hh]
    · simp [eitherLine, hmn]

theorem receivePhys (h : UnitsReached opened met b t) {n : Line} (hn : n ≠ hostLine) (frame : List Word) (short : Bool) :
    UnitsReached opened (eitherLine met (· == n)) b (beginFrame n (receiveBoundary n frame short t)) := by
  refine h.receive (fun m => ?_) (fun m hm => ?_) (fun m hm => ?_) fun m => ?_
  · simp only [beginFrame_frame, receiveBoundary_lines]
    by_cases hm : m = n
    · subst hm; by_cases hr : (t.stores.get m).receiving = true <;> simp [hr]
    · simp [hm]
  · simp only [beginFrame_frame]
    exact Tab.ext_get fun k => receiveBoundary_counter_ne n m hm frame short t k
  · simp only [beginFrame_frame]; exact receiveBoundary_windows n m hm frame short t
  · simp [beginFrame, Tab.get_put, hn]

theorem receiveHost (h : UnitsReached opened met b t) :
    UnitsReached opened (eitherLine met (· == hostLine)) b (hostBoundary t) := by
  refine h.receive (fun m => ?_) (fun m hm => ?_) (fun m hm => by simp) fun m => by simp
  · rw [show (hostBoundary t).lines = t.lines by simp]; split
    · next hm => rw [hm]
    · rfl
  · exact Tab.ext_get fun k => hostBoundary_counter_other t hm k

end UnitsReached

/-! ### The stores -/

namespace Store

/-- Holders that leave do not change which buffer is being filled. -/
theorem filling_of_leftBy {left : Line → Bool} {a c : Store} (h : ∀ i, (a.buffers.get i).LeftBy left (c.buffers.get i)) :
    c.filling = a.filling := by
  have same : ∀ i, ((c.buffers.get i).state == .filling) = ((a.buffers.get i).state == .filling) := fun i => by
    by_cases hl : (a.buffers.get i).LastLeft left
    · rw [(h i).freed hl, hl.1]; rfl
    · rw [(h i).kept hl]
  simp only [Store.filling, same]

theorem nextNumberIsNewest_of_leftBy {left : Line → Bool} {a c : Store}
    (h : ∀ i, (a.buffers.get i).LeftBy left (c.buffers.get i)) (hf : c.frameCount = a.frameCount)
    (hn : a.NextNumberIsNewest) : c.NextNumberIsNewest := fun j g hj hg => by
  have kept : ¬ (a.buffers.get j).LastLeft left := fun hl => by rw [(h j).freed hl] at hj; cases hj
  rw [hf]
  exact hn j g (by rw [(h j).kept kept] at hj; exact hj) (by rw [(h j).kept kept] at hg; exact hg)

end Store

/-- The frame that a line completes at a frame start (R9, R42). -/
def State.completedFrame (s : State) (n : Line) : List Word := fullFrame (s.lines.get n).config.slotCount (s.received.get n)

/-- The store of line `n` after the receive side of its boundary at a frame start. -/
structure FrameTaken (b : State) (n : Line) (st : Store) : Prop where
  frameCount : st.frameCount = if (b.stores.get n).receiving then (b.stores.get n).frameCount + 1 else (b.stores.get n).frameCount
  receiving : st.receiving = true
  takes : ∀ i, (b.stores.get n).filling = some i → (b.stores.get n).NextNumberIsNewest →
    ∃ c : Buffer, st.buffers.get i = c.take ((b.stores.get n).frameCount + 1)
      (judge (b.lines.get n).reached (b.completedFrame n) false).damaged (b.completedFrame n)

namespace FrameTaken

theorem release {b : State} {n : Line} {st : Store} (h : FrameTaken b n st) (y : Line) : FrameTaken b n (st.release y) where
  frameCount := h.frameCount
  receiving := by rw [Store.release_receiving]; exact h.receiving
  takes i hi hn := by
    obtain ⟨c, hc⟩ := h.takes i hi hn
    exact ⟨c, by rw [Store.release_buffer, hc, Buffer.release_take]⟩

/-- The receive side of the boundary, the line having been reached and lines having left its store. -/
theorem receive {left met opened : Line → Bool} {b t : State} (r : Released left met b t) (k : UnitsReached opened met b t)
    {n : Line} (hm : met n = false) (ho : opened n = true) :
    FrameTaken b n ((receiveBoundary n (t.completedFrame n) false t).stores.get n) := by
  obtain ⟨store, leaves⟩ := r.other n hm
  have unit := k.unit_of_waits hm
  rw [if_pos ho] at unit
  have frame : t.completedFrame n = b.completedFrame n := by
    obtain ⟨config, -⟩ := (b.lines.get n).reached_config
    rw [State.completedFrame, unit, config, k.received, if_neg (by simp [hm])]; rfl
  have count : (t.stores.get n).frameCount = (b.stores.get n).frameCount := by rw [store]
  have filling := Store.filling_of_leftBy leaves
  have receiving : (t.stores.get n).receiving = (b.stores.get n).receiving := by
    have discarding : (t.stores.get n).discarding = (b.stores.get n).discarding := by rw [store]
    rw [Store.receiving, filling, discarding]; rfl
  refine ⟨?_, receiveBoundary_receiving n _ _ t, fun i hi hn => ⟨(t.stores.get n).buffers.get i, ?_⟩⟩
  · rw [receiveBoundary_frameCount, receiving, count]; simp
  · rw [receiveBoundary_buffer _ _ (by rw [filling]; exact hi) (Store.nextNumberIsNewest_of_leftBy leaves count hn), count, unit,
      frame]

end FrameTaken

end Sys2Proof.Machine
end

section
set_option Elab.async false -- one proof after the other, within the check's limit on threads
/-! A frame start side by side: its SYNC records (R9), and the host line block (R127, R134, R138). -/

namespace Sys2Proof.Machine

/-! ### SYNC records -/

theorem exists_physLine {n : Line} (h : n ≠ hostLine) : ∃ p : PhysLine, p.line = n := by
  have hn : n.val ≠ 8 := fun e => h (Fin.ext e)
  exact ⟨⟨n.val, by omega⟩, rfl⟩

/-- From `s` to `t` no SYNC is sent, and no loss of a record is forgotten. -/
structure NoSync (s t : State) : Prop where
  sends : ∃ sent, t.evq.records = s.evq.records ++ sent ∧ ∀ r ∈ sent, r.kind ≠ .sync
  loss : s.irq.evqLoss = true → t.irq.evqLoss = true

namespace NoSync

theorem refl (s : State) : NoSync s s := ⟨⟨[], by simp⟩, id⟩

theorem kept (s : State) : KeptByReports (fun k => k != .sync) (NoSync s) where
  rests t u h ht := by
    have hq : u.evq = t.evq := h .evq (by simp)
    have hi : u.irq = t.irq := h .irq (by simp)
    obtain ⟨sends, loss⟩ := ht
    exact ⟨by rw [hq]; exact sends, by rw [hi]; exact loss⟩
  append r t hr h := by
    obtain ⟨⟨sent, hs, hk⟩, loss⟩ := h
    unfold appendRecord; split
    · refine ⟨⟨sent ++ [r], by simp [hs], fun q hq => ?_⟩, loss⟩
      obtain hq | hq := List.mem_append.mp hq
      · exact hk q hq
      · rw [List.mem_singleton.mp hq]; simpa using hr
    · exact ⟨⟨sent, hs, hk⟩, fun _ => rfl⟩

theorem completeCommit {s t : State} (h : NoSync s t) : NoSync s (completeCommit t) := by
  obtain ⟨sends, loss⟩ := (kept s).sendBankEvent (kind := .commitDone) rfl (BitVec.ofNat 16 t.bc.active.code)
    ((kept s).same (t := t.withBc { t.bc with pair := .stable }) h)
  exact ⟨sends, loss⟩

theorem transmitBoundary (n : Line) (s : State) : NoSync s (transmitBoundary n s) := by
  have adopted : NoSync s (adopt n (releaseHolds n s)) := by
    unfold adopt
    dsimp only
    split
    · split
      · exact completeCommit ((kept s).same (refl s) (by simp) (by simp))
      · exact (kept s).same (refl s) (by simp) (by simp)
    · exact (kept s).same (refl s)
  exact (kept s).same adopted (by simp [Machine.transmitBoundary]) (by simp [Machine.transmitBoundary])

end NoSync

/-- The queue takes no notice of the line units. -/
theorem appendRecord_withLines (r : EventRecord) (s : State) (l : Tab LineUnit 9) :
    appendRecord r (s.withLines l) = (appendRecord r s).withLines l := by
  have evq : (s.withLines l).evq = s.evq := rfl
  by_cases h : s.evq.records.length < Config.eventCapacity
  · rw [appendRecord, appendRecord, evq, if_pos h, if_pos h]; rfl
  · rw [appendRecord, appendRecord, evq, if_neg h, if_neg h]; rfl

/-- The SYNC record of a line that a frame start finds in HUNT. -/
def State.syncRecord (s : State) (n : Line) : EventRecord := ⟨.sync, n, 0, 1, 3, s.stampOf n⟩

/-- While a frame start has reached the lines of `opened`: the SYNC records sent are theirs, and none is missing unless the list
has been full. -/
structure SyncsSent (opened : Line → Bool) (b t : State) : Prop where
  only : ∀ r ∈ t.evq.records, r.kind = .sync →
    ∃ p : PhysLine, opened p.line = true ∧ (b.lines.get p.line).receiver = .hunt ∧ r = b.syncRecord p.line
  all : t.evq.records.length < 32 ∨ t.irq.evqLoss = false → ∀ p : PhysLine, opened p.line = true →
    (b.lines.get p.line).receiver = .hunt → b.syncRecord p.line ∈ t.evq.records

namespace SyncsSent

variable {opened : Line → Bool} {b t u : State}

theorem refl {b : State} (h : b.evq.records = []) : SyncsSent neither b b :=
  ⟨fun r hr => by rw [h] at hr; simp at hr, fun _ p hp => by cases hp⟩

theorem thenNone (h : SyncsSent opened b t) (k : NoSync t u) : SyncsSent opened b u := by
  obtain ⟨⟨sent, records, kinds⟩, loss⟩ := k
  refine ⟨fun r hr hk => ?_, fun hroom p ho hp => ?_⟩
  · rw [records] at hr
    obtain hr | hr := List.mem_append.mp hr
    · exact h.only r hr hk
    · exact absurd hk (kinds r hr)
  · rw [records]
    refine List.mem_append_left _ (h.all ?_ p ho hp)
    rw [records, List.length_append] at hroom
    refine hroom.imp (fun hl => by omega) fun hl => ?_
    rw [Bool.eq_false_iff] at hl ⊢
    exact fun ht => hl (loss ht)

/-- The lines that a frame start has reached, one more not in HUNT or the host line among them. -/
theorem opensQuietly (h : SyncsSent opened b t) {n : Line} (hn : n = hostLine ∨ (b.lines.get n).receiver ≠ .hunt)
    (k : NoSync t u) : SyncsSent (eitherLine opened (· == n)) b u := by
  obtain ⟨only, all⟩ := h.thenNone k
  refine ⟨fun r hr hk => ?_, fun hroom p ho hp => all hroom p ?_ hp⟩
  · obtain ⟨p, ho, hp⟩ := only r hr hk
    exact ⟨p, eitherLine_eq_true.mpr (.inl ho), hp⟩
  · refine (eitherLine_eq_true.mp ho).resolve_right fun he => ?_
    rw [← beq_iff_eq.mp he] at hn
    exact hn.elim (physLine_ne_host p) fun hr => hr hp

/-- A physical line in HUNT is reached. -/
theorem opensHunting (h : SyncsSent opened b t) {p : PhysLine} (hp : (b.lines.get p.line).receiver = .hunt)
    (hu : u.evq = (appendRecord (b.syncRecord p.line) t).evq) (hi : u.irq = (appendRecord (b.syncRecord p.line) t).irq) :
    SyncsSent (eitherLine opened (· == p.line)) b u := by
  refine ⟨fun r hr hk => ?_, fun hroom q ho hq => ?_⟩
  · rw [hu] at hr
    obtain hr | rfl := appendRecord_mem hr
    · obtain ⟨q, ho, hq⟩ := h.only r hr hk
      exact ⟨q, eitherLine_eq_true.mpr (.inl ho), hq⟩
    · exact ⟨p, by simp [eitherLine], hp, rfl⟩
  · rw [hu, hi] at hroom
    rw [hu]
    by_cases hl : t.evq.records.length < 32
    · rw [appendRecord_of_room _ hl]
      obtain ho | he := eitherLine_eq_true.mp ho
      · exact List.mem_append_left _ (h.all (.inl hl) q ho hq)
      · rw [beq_iff_eq.mp he]; exact List.mem_append_right _ (List.mem_singleton_self _)
    · rw [appendRecord_of_full _ (Nat.not_lt.mp hl)] at hroom
      exact absurd hroom (by simp [hl])

theorem opens (h : SyncsSent opened b t) {n : Line} (hl : t.lines.get n = b.lines.get n)
    (hs : t.stampOf n = b.stampOf n) : SyncsSent (eitherLine opened (· == n)) b (reachLine n t) := by
  by_cases hunt : (b.lines.get n).receiver = .hunt
  · have reached : reachLine n t = lock n t := if_pos (by rw [hl]; exact hunt)
    rw [reached]
    by_cases hn : n = hostLine
    · refine h.opensQuietly (.inl hn) ((NoSync.kept t).same (NoSync.refl t) ?_ ?_) <;> simp [lock, hn]
    · obtain ⟨p, rfl⟩ := exists_physLine hn
      have locked : lock p.line t = (appendRecord (b.syncRecord p.line) t).withLines (t.lines.put p.line
          { t.lines.get p.line with receiver := .locked, verifyCount := 0, earlyCount := 0, rxRef := none }) := by
        rw [← appendRecord_withLines, State.syncRecord, ← hs]
        exact if_neg hn
      refine h.opensHunting hunt ?_ ?_ <;> rw [locked] <;> rfl
  · have still : reachLine n t = t := if_neg (by rw [hl]; exact hunt)
    rw [still]
    exact h.opensQuietly (.inr hunt) (NoSync.refl t)

end SyncsSent

end Sys2Proof.Machine
end

section
set_option Elab.async false -- one proof after the other, within the check's limit on threads
/-! A frame start at the host line block (R127, R134, R138): its frame and the span of it, before and after the block has had its
boundary, in every order of sides. -/

namespace Sys2Proof.Machine

/-! ### The flag and the span of the host line -/

/-- What the span of the host line's frame has seen is the flag as it stands. -/
def State.spanIsFlag (s : State) : Prop := (s.txas.get hostLine).spanSuspended = (s.txas.get hostLine).suspended

namespace State.spanIsFlag

variable {s : State} (h : s.spanIsFlag)
include h

theorem addCause (n : Line) (c : Cause) : (addCause n c s).spanIsFlag := by
  unfold State.spanIsFlag
  rw [FlagsAfter.addCause_txas]
  split
  · rfl
  · exact h

theorem giveGroup (g : Line → Bool) : (giveGroup g s).spanIsFlag :=
  foldl_invariant State.spanIsFlag _ (fun t m ht => by
    split
    · exact ht.addCause m .group
    · exact ht) _ _ h

theorem addOwnCause (n : Line) (c : Cause) : (addOwnCause n c s).spanIsFlag := by
  unfold Machine.addOwnCause
  split
  · exact h
  · split
    · exact (h.addCause n c).giveGroup _
    · exact h.addCause n c

theorem frame {t : State} (ht : t.txas = s.txas := by simp) : t.spanIsFlag := by
  unfold State.spanIsFlag
  rw [ht]; exact h

theorem receiveBoundary (n : Line) (f : List Word) (short : Bool) : (receiveBoundary n f short s).spanIsFlag := by
  have completed : ∀ u : State, u.txas = s.txas → ∀ d, (advanceWindow n d u).spanIsFlag := fun u hu d => by
    have before : u.spanIsFlag := h.frame hu
    have windows : ∀ w, (u.withWindows w).spanIsFlag := fun w => before.frame
    unfold advanceWindow
    dsimp only
    split
    · exact (windows _).addOwnCause n .degraded
    · exact windows _
  unfold Machine.receiveBoundary
  split
  · exact completed _ (by simp) _
  · exact h.frame

end State.spanIsFlag

/-- The flags of the host line after the transmit side of its boundary: a test of its suspension, which ends the span with the
flag where no frame is fixed (R125, R127). -/
theorem transmitBoundary_hostTxa (s : State) : (transmitBoundary hostLine s).txas.get hostLine
    = if ((s.txas.get hostLine).suspended && !s.isolating hostLine) = true then
        { s.txas.get hostLine with
          suspended := false
          spanSuspended := (s.txas.get hostLine).spanSuspended && (s.txas.get hostLine).fixed.isSome }
      else s.txas.get hostLine := by
  have same : (adopt hostLine (releaseHolds hostLine s)).txas = s.txas := by simp
  have isolating : (adopt hostLine (releaseHolds hostLine s)).isolating hostLine = s.isolating hostLine :=
    isolating_of_same (by simp) (by simp) (by simp) hostLine
  have txas : (transmitBoundary hostLine s).txas = (testSuspension hostLine (adopt hostLine (releaseHolds hostLine s))).txas := by
    rw [transmitBoundary, endFrame, if_pos rfl]; rfl
  rw [txas, testSuspension]
  dsimp only
  rw [same, isolating]
  split
  · simp
  · rw [same]

theorem State.spanIsFlag.transmitHost {s : State} (h : s.spanIsFlag) (hf : (s.txas.get hostLine).fixed = none) :
    (transmitBoundary hostLine s).spanIsFlag := by
  unfold State.spanIsFlag
  rw [transmitBoundary_hostTxa]
  split
  · simp [hf]
  · exact h

theorem transmitBoundary_otherTxa {n m : Line} (hm : m ≠ n) (s : State) :
    (transmitBoundary n s).txas.get m = s.txas.get m := by
  have placed : (transmitBoundary n s).txas = (endFrame n (testSuspension n (adopt n (releaseHolds n s)))).txas := rfl
  rw [placed, FlagsAfter.endFrame_txas, if_neg fun h => hm h.1, testSuspension]
  split
  · simp [hm]
  · simp

/-! ### Before its boundary -/

/-- The host line block waits for its boundary: it is as it was, and the span of a frame fixed goes on. -/
structure HostWaits (b t : State) : Prop where
  host : t.host = b.host
  fixed : (t.txas.get hostLine).fixed = (b.txas.get hostLine).fixed
  keeps : (b.txas.get hostLine).fixed.isSome = true → (b.txas.get hostLine).spanSuspended = true →
    (t.txas.get hostLine).spanSuspended = true
  gains : (b.txas.get hostLine).fixed.isSome = true → (t.txas.get hostLine).spanSuspended = true →
    (b.txas.get hostLine).spanSuspended = true ∨ t.isolating hostLine = true

namespace HostWaits

variable {b t u : State}

theorem refl (b : State) : HostWaits b b := ⟨rfl, rfl, fun _ => id, fun _ => .inl⟩

/-- A step that leaves the block and the fixed frame alone and suspends lines only as the isolating condition says. -/
theorem thenFlags (h : HostWaits b t) {tested spans : Line → Prop} (k : FlagsAfter tested spans t u) (hs : ¬ spans hostLine)
    (hh : u.host = t.host) (hf : (u.txas.get hostLine).fixed = (t.txas.get hostLine).fixed) : HostWaits b u where
  host := hh.trans h.host
  fixed := hf.trans h.fixed
  keeps hx hb := k.spanKeeps hostLine hs (h.keeps hx hb)
  gains hx hu := by
    obtain ht | hi := k.spanGains hostLine hs hu
    · exact (h.gains hx ht).imp_right k.isolating
    · exact .inr hi

theorem transmitHost (h : HostWaits b t) : HostWaits b (transmitBoundary hostLine t) := by
  have txa := transmitBoundary_hostTxa t
  have isolating : (transmitBoundary hostLine t).isolating hostLine = t.isolating hostLine :=
    isolating_of_same (by simp) (by simp) (by simp) hostLine
  have span : (b.txas.get hostLine).fixed.isSome = true →
      ((transmitBoundary hostLine t).txas.get hostLine).spanSuspended = (t.txas.get hostLine).spanSuspended := fun hx => by
    rw [txa]
    split
    · rw [h.fixed, hx, Bool.and_true]
    · rfl
  refine ⟨by simp [h.host], ?_, fun hx hb => ?_, fun hx ht => ?_⟩
  · rw [txa, ← h.fixed]; split <;> rfl
  · rw [span hx]; exact h.keeps hx hb
  · rw [isolating]; rw [span hx] at ht; exact h.gains hx ht

end HostWaits

/-! ### After its boundary -/

/-- The host line block has had its boundary. -/
structure HostHanded (b t : State) : Prop where
  span : t.spanIsFlag
  fixed : (t.txas.get hostLine).fixed = none
  host : t.host = { b.host with
    insertPending := none
    underrunArmed := b.host.insertPending.isSome
    captures := t.host.captures
    overflowRun := t.host.overflowRun }
  frameCount : (t.stores.get hostLine).frameCount
    = if b.host.insertPending.isSome then (b.stores.get hostLine).frameCount + 1 else (b.stores.get hostLine).frameCount
  noFrame : (b.txas.get hostLine).fixed = none → t.host.captures = b.host.captures
  dropped : ∀ f, (b.txas.get hostLine).fixed = some f → 8 ≤ b.host.captures.length → t.host.captures = b.host.captures
  captured : ∀ f, (b.txas.get hostLine).fixed = some f → b.host.captures.length < 8 →
    ∃ blank : Bool, t.host.captures = b.host.captures ++ [captureOf f blank]
      ∧ ((b.txas.get hostLine).spanSuspended = true → blank = true)
      ∧ (blank = true → (b.txas.get hostLine).spanSuspended = true ∨ t.isolating hostLine = true)

namespace HostHanded

variable {b t u : State}

theorem thenFlags (h : HostHanded b t) {tested spans : Line → Prop} (k : FlagsAfter tested spans t u) (hs : u.spanIsFlag)
    (hf : (u.txas.get hostLine).fixed = none) (hh : u.host = t.host)
    (hc : (u.stores.get hostLine).frameCount = (t.stores.get hostLine).frameCount) : HostHanded b u := by
  obtain ⟨-, -, host, count, noFrame, dropped, captured⟩ := h
  refine ⟨hs, hf, by rw [hh]; exact host, by rw [hc]; exact count, by rw [hh]; exact noFrame, by rw [hh]; exact dropped,
    fun f hx hl => ?_⟩
  obtain ⟨blank, captures, keeps, gains⟩ := captured f hx hl
  exact ⟨blank, by rw [hh]; exact captures, keeps, fun hb => (gains hb).imp_right k.isolating⟩

/-- The boundary of the block. -/
theorem hostBoundary (h : HostWaits b t)
    (hc : (t.stores.get hostLine).frameCount = (b.stores.get hostLine).frameCount) : HostHanded b (hostBoundary t) := by
  have txa : (Machine.hostBoundary t).txas.get hostLine
      = { t.txas.get hostLine with fixed := none, spanSuspended := (t.txas.get hostLine).suspended } := by
    rw [Machine.hostBoundary, deliverCapture_txas, if_pos rfl, handOver_txas]
  have stores : (Machine.hostBoundary t).stores = (handOver t).stores := by simp [Machine.hostBoundary]
  have isolating : (Machine.hostBoundary t).isolating hostLine = t.isolating hostLine :=
    isolating_of_same (by simp) (by simp) (by simp) hostLine
  have host : (Machine.hostBoundary t).host = _ := deliverCapture_host_eq (handOver t)
  rw [handOver_txas, handOver_host, h.fixed, h.host] at host
  refine ⟨by rw [State.spanIsFlag, txa], by rw [txa], ?_, ?_, fun hx => ?_, fun f hx hl => ?_, fun f hx hl => ?_⟩
  · rw [host]
    split
    · split <;> rfl
    · rfl
  · rw [stores]
    cases hp : t.host.insertPending with
    | none => rw [handOver_stores, ← h.host, hp, hc]; rfl
    | some f =>
      obtain ⟨count, -⟩ := handOver_placed hp
      rw [count, ← h.host, hp, hc]; rfl
  · rw [host, hx]
  · rw [host, hx]
    dsimp only
    rw [if_neg (Nat.not_lt.mpr hl)]
  · have some : (b.txas.get hostLine).fixed.isSome = true := by rw [hx]; rfl
    refine ⟨(t.txas.get hostLine).spanSuspended, ?_, h.keeps some, fun hb => ?_⟩
    · rw [host, hx]
      dsimp only
      rw [if_pos hl]
    · rw [isolating]; exact h.gains some hb

end HostHanded

end Sys2Proof.Machine
end

section
set_option Elab.async false -- one proof after the other, within the check's limit on threads
/-! A frame start, whose sides are taken in any order (R6, R9): the settling of obligation O13. -/

namespace Sys2Proof.Machine

/-! ### The sides taken so far -/

/-- From `b` to `t` a frame start has reached the lines of `opened`; those of `left` have had the transmit side of their boundary
and those of `met` the receive side. -/
structure FrameProgress (opened left met : Line → Bool) (b t : State) : Prop where
  order : ∀ m, met m = true → opened m = true
  bounds : Bounds left met b t
  units : UnitsReached opened met b t
  stores : ∀ m, m ≠ hostLine → met m = true → FrameTaken b m (t.stores.get m)
  syncs : SyncsSent opened b t
  waits : met hostLine = false → HostWaits b t
  handed : met hostLine = true → HostHanded b t

namespace FrameProgress

variable {opened left met : Line → Bool} {b t : State}

theorem refl {b : State} (h : b.evq.records = []) : FrameProgress neither neither neither b b :=
  ⟨fun _ => id, .refl b, .refl b, fun _ _ hm => (by cases hm), .refl h, fun _ => .refl b, fun hm => (by cases hm)⟩

theorem congr {opened' left' met' : Line → Bool} (h : FrameProgress opened left met b t) (ho : ∀ n, opened n = opened' n)
    (hl : ∀ n, left n = left' n) (hm : ∀ n, met n = met' n) : FrameProgress opened' left' met' b t := by
  obtain rfl : opened = opened' := funext ho
  obtain rfl : left = left' := funext hl
  obtain rfl : met = met' := funext hm
  exact h

/-- The store of a line before the receive side of its boundary has numbered no frame. -/
theorem frameCount_of_waits (h : FrameProgress opened left met b t) {n : Line} (hn : met n = false) :
    (t.stores.get n).frameCount = (b.stores.get n).frameCount := by
  obtain ⟨store, -⟩ := h.bounds.released.other n hn
  rw [store]

theorem waits_of_unopened (h : FrameProgress opened left met b t) {n : Line} (hn : opened n = false) : met n = false := by
  rw [Bool.eq_false_iff] at hn ⊢
  exact fun hm => hn (h.order n hm)

/-- A line is reached for the first time. -/
theorem opens (h : FrameProgress opened left met b t) {n : Line} (hn : opened n = false) :
    FrameProgress (eitherLine opened (· == n)) left met b (reachLine n t) := by
  have waits := h.waits_of_unopened hn
  have unit : t.lines.get n = b.lines.get n := by rw [h.units.unit_of_waits waits, hn]; rfl
  have stamp : t.stampOf n = b.stampOf n := by rw [State.stampOf, h.frameCount_of_waits waits]; rfl
  have sends : OnlySends t (reachLine n t) := by
    unfold reachLine; split
    · exact (OnlySends.keptBySends t).reports.lock rfl n (OnlySends.refl t)
    · exact OnlySends.refl t
  have reports : Reports t (reachLine n t) := by
    unfold reachLine; split
    · exact (Reports.kept t).lock rfl n (Reports.refl t)
    · exact Reports.refl t
  have flags : FlagsAfter noLine noLine t (reachLine n t) := .same (hc := fun m => reachLine_config n m t)
  exact {
    order := fun m hm => eitherLine_eq_true.mpr (.inl (h.order m hm))
    bounds := h.bounds.thenReports sends reports (hc := fun m => reachLine_config n m t)
    units := h.units.opens hn waits
    stores := fun m hm hmet => by rw [show (reachLine n t).stores = t.stores by simp]; exact h.stores m hm hmet
    syncs := h.syncs.opens unit stamp
    waits := fun hm => (h.waits hm).thenFlags flags id (by simp) (by simp)
    handed := fun hm => (h.handed hm).thenFlags flags ((h.handed hm).span.frame (by simp)) (by simpa using (h.handed hm).fixed)
      (by simp) (by simp) }

theorem reaches (h : FrameProgress opened left met b t) (n : Line) :
    FrameProgress (eitherLine opened (· == n)) left met b (reachLine n t) := by
  by_cases ho : opened n = true
  · rw [h.units.reachLine_of_opened ho]
    refine h.congr (fun m => ?_) (fun _ => rfl) fun _ => rfl
    by_cases hm : m = n
    · subst hm; simp [eitherLine, ho]
    · simp [eitherLine, hm]
  · exact h.opens (Bool.eq_false_iff.mpr ho)

/-- The transmit side of a boundary. -/
theorem transmit (h : FrameProgress opened left met b t) {n : Line} (hn : left n = false) :
    FrameProgress opened (eitherLine left (· == n)) met b (transmitBoundary n t) where
  order := h.order
  bounds := h.bounds.transmit hn
  units := h.units.frame
  stores m hm hmet := by rw [transmitBoundary_stores]; exact (h.stores m hm hmet).release n
  syncs := h.syncs.thenNone (.transmitBoundary n t)
  waits hm := by
    by_cases hh : n = hostLine
    · subst hh; exact (h.waits hm).transmitHost
    · exact (h.waits hm).thenFlags (.transmitBoundary n t) (Ne.symm hh) (by simp) (by rw [transmitBoundary_otherTxa (Ne.symm hh)])
  handed hm := by
    have handed := h.handed hm
    have count : ((transmitBoundary n t).stores.get hostLine).frameCount = (t.stores.get hostLine).frameCount := by
      rw [transmitBoundary_stores]; rfl
    refine handed.thenFlags (.transmitBoundary n t) ?_ ?_ (by simp) count
    · by_cases hh : n = hostLine
      · subst hh; exact handed.span.transmitHost handed.fixed
      · rw [State.spanIsFlag, transmitBoundary_otherTxa (Ne.symm hh)]; exact handed.span
    · by_cases hh : n = hostLine
      · subst hh
        rw [transmitBoundary_hostTxa, ← handed.fixed]; split <;> rfl
      · rw [transmitBoundary_otherTxa (Ne.symm hh)]; exact handed.fixed

theorem order_met (h : FrameProgress opened left met b t) {n : Line} (ho : opened n = true) (m : Line)
    (hm : eitherLine met (· == n) m = true) : opened m = true := by
  obtain hm | hm := eitherLine_eq_true.mp hm
  · exact h.order m hm
  · rw [beq_iff_eq.mp hm]; exact ho

/-- The receive side of a physical line's boundary. -/
theorem receivePhys (h : FrameProgress opened left met b t) {n : Line} (hn : n ≠ hostLine) (hw : met n = false)
    (ho : opened n = true) : FrameProgress opened left (eitherLine met (· == n)) b
      (beginFrame n (receiveBoundary n (t.completedFrame n) false t)) := by
  have sends := (OnlySends.keptBySends (receiveBoundary n (t.completedFrame n) false t)).reports.same (OnlySends.refl _)
    (t := beginFrame n (receiveBoundary n (t.completedFrame n) false t)) (by simp) (by simp)
  have reports := (Reports.kept (receiveBoundary n (t.completedFrame n) false t)).same (Reports.refl _)
    (t := beginFrame n (receiveBoundary n (t.completedFrame n) false t)) (by simp) (by simp)
  have host : eitherLine met (· == n) hostLine = met hostLine := by simp [eitherLine, Ne.symm hn]
  have flags : FlagsAfter noLine noLine t (beginFrame n (receiveBoundary n (t.completedFrame n) false t)) :=
    (FlagsAfter.receiveBoundary n (t.completedFrame n) false t).thenNone .same
  have fixed : ((beginFrame n (receiveBoundary n (t.completedFrame n) false t)).txas.get hostLine).fixed
      = (t.txas.get hostLine).fixed := by
    have ended := FramesEnded.receiveBoundary n (t.completedFrame n) false t hostLine
    rw [show (beginFrame n (receiveBoundary n (t.completedFrame n) false t)).txas
      = (receiveBoundary n (t.completedFrame n) false t).txas by simp, ended, if_neg (by simp [neither])]
  have stores : (beginFrame n (receiveBoundary n (t.completedFrame n) false t)).stores
      = (receiveBoundary n (t.completedFrame n) false t).stores := by simp
  exact {
    order := h.order_met ho
    bounds := (h.bounds.receive hw hn (t.completedFrame n) false).thenReports sends reports
    units := h.units.receivePhys hn (t.completedFrame n) false
    stores := fun m hm hmet => by
      rw [stores]
      by_cases hmn : m = n
      · subst hmn; exact .receive h.bounds.released h.units hw ho
      · rw [receiveBoundary_otherStore hmn]
        exact h.stores m hm ((eitherLine_eq_true.mp hmet).resolve_right fun he => hmn (beq_iff_eq.mp he))
    syncs := h.syncs.thenNone ((NoSync.kept t).same ((NoSync.kept t).receiveBoundary rfl rfl n (t.completedFrame n) false (NoSync.refl t)))
    waits := fun hm => (h.waits (by rw [← host]; exact hm)).thenFlags flags id (by simp) fixed
    handed := fun hm => by
      have handed := h.handed (by rw [← host]; exact hm)
      exact handed.thenFlags flags ((handed.span.receiveBoundary n (t.completedFrame n) false).frame) (by rw [fixed]; exact handed.fixed) (by simp)
        (by rw [stores, receiveBoundary_otherStore (Ne.symm hn)]) }

/-- The boundary of the host line block. -/
theorem receiveHost (h : FrameProgress opened left met b t) (hw : met hostLine = false) (ho : opened hostLine = true) :
    FrameProgress opened left (eitherLine met (· == hostLine)) b (hostBoundary t) where
  order := h.order_met ho
  bounds := h.bounds.hostReceive hw
  units := h.units.receiveHost
  stores m hm hmet := by
    rw [(hostBoundary_stores t).1 m hm]
    exact h.stores m hm ((eitherLine_eq_true.mp hmet).resolve_right fun he => hm (beq_iff_eq.mp he))
  syncs := h.syncs.thenNone ((NoSync.kept t).hostBoundary rfl rfl rfl (NoSync.refl t))
  waits hm := by simp [eitherLine] at hm
  handed _ := .hostBoundary (h.waits hw) (h.frameCount_of_waits hw)

end FrameProgress

/-! ### All sides -/

/-- The side of the line stands in the list. -/
def sideIn (side : Side) (done : List Part) (n : Line) : Bool := decide (⟨n, side⟩ ∈ done)

/-- A side of the line stands in the list. -/
def lineIn (done : List Part) : Line → Bool := eitherLine (sideIn .transmit done) (sideIn .receive done)

theorem sideIn_append (side : Side) (done : List Part) (p : Part) (n : Line) :
    sideIn side (done ++ [p]) n = (sideIn side done n || (n == p.line && side == p.side)) := by
  obtain ⟨m, side'⟩ := p
  rw [Bool.eq_iff_iff]
  simp [sideIn]

/-- The sides of `done` have been taken. -/
def SidesTaken (done : List Part) (b t : State) : Prop :=
  FrameProgress (lineIn done) (sideIn .transmit done) (sideIn .receive done) b t

theorem SidesTaken.takePart {done : List Part} {b t : State} (h : SidesTaken done b t) {p : Part} (hp : p ∉ done) :
    SidesTaken (done ++ [p]) b (takePart p t) := by
  have reached := FrameProgress.reaches h p.line
  have opened : eitherLine (lineIn done) (· == p.line) p.line = true := by simp [eitherLine]
  have lines : ∀ n, eitherLine (lineIn done) (· == p.line) n = lineIn (done ++ [p]) n := fun n => by
    simp only [lineIn, eitherLine, sideIn_append]
    cases p.side <;> cases sideIn .transmit done n <;> cases sideIn .receive done n <;> simp
  rw [takePart_eq]
  obtain ⟨n, side⟩ := p
  cases side with
  | transmit =>
    refine (reached.transmit (by simpa [sideIn] using hp)).congr lines (fun m => ?_) fun m => ?_
    · simp [eitherLine, sideIn_append]
    · simp [sideIn_append]
  | receive =>
    have waits : sideIn .receive done n = false := by simpa [sideIn] using hp
    have taken : FrameProgress (eitherLine (lineIn done) (· == n)) (sideIn .transmit done)
        (eitherLine (sideIn .receive done) (· == n)) b (receivePart n (reachLine n t)) := by
      by_cases hn : n = hostLine
      · subst hn
        rw [receivePart_host]; exact reached.receiveHost waits opened
      · rw [receivePart_of_phys hn]; exact reached.receivePhys hn waits opened
    refine taken.congr lines (fun m => ?_) fun m => ?_
    · simp [sideIn_append]
    · simp [eitherLine, sideIn_append]

theorem SidesTaken.takeParts {b : State} (l : List Part) : ∀ {done : List Part} {t : State}, (done ++ l).Nodup →
    SidesTaken done b t → SidesTaken (done ++ l) b (l.foldl (fun t p => Machine.takePart p t) t) := by
  induction l with
  | nil => intro done t _ h; rw [List.append_nil]; exact h
  | cons p l ih =>
    intro done t hd h
    have new : p ∉ done := fun hp => by
      obtain ⟨-, -, disjoint⟩ := List.nodup_append.mp hd
      exact disjoint p hp p (by simp) rfl
    have := ih (done := done ++ [p]) (by simpa using hd) (h.takePart new)
    simpa using this

end Sys2Proof.Machine
end

section
set_option Elab.async false -- one proof after the other, within the check's limit on threads
/-! A frame start with the bit clocks before it and its records taken in turn: the settling of obligation O13. -/

namespace Sys2Proof.Machine

/-! ### The bit clocks of a generator's frame -/

theorem counting_of_running {n : Line} {s : State} (h : s.running n = true) : s.counting n = true := by
  simp [State.counting, h]

/-- A running line that the generator times receives its samples. -/
theorem frameBitClocks_received {g : Fin 2} {p : PhysLine} {s : State} (ht : s.timedBy g p.line = true)
    (hr : s.running p.line = true) (samples : Tab (List Bool) 8) :
    (frameBitClocks g samples s).received.get p.line = s.received.get p.line ++ samples.get p := by
  have phys : physLine? p.line = some p := dif_pos p.isLt
  have other : ∀ (t : State) (m : Line), m ≠ p.line → ∀ u, u = (match physLine? m with
      | some q => if s.timedBy g m then bitClocks m (samples.get q) t else t
      | none => t) → u.lines = t.lines ∧ u.received.get p.line = t.received.get p.line := by
    rintro t m hm u rfl
    split
    · split
      · exact ⟨by simp, (bitClocks_received m _ t).2 p.line (Ne.symm hm)⟩
      · exact ⟨rfl, rfl⟩
    · exact ⟨rfl, rfl⟩
  refine foldl_allLines (P := fun t => t.lines = s.lines ∧ t.received.get p.line = s.received.get p.line)
    (Q := fun t => t.received.get p.line = s.received.get p.line ++ samples.get p) p.line ⟨rfl, rfl⟩
    (fun t m hm ⟨hl, hb⟩ => ?_) (fun t ⟨hl, hb⟩ => ?_) fun t m hm h => ?_
  · obtain ⟨lines, received⟩ := other t m hm _ rfl
    exact ⟨lines.trans hl, received.trans hb⟩
  · rw [phys]
    dsimp only
    rw [if_pos ht, (bitClocks_received p.line _ t).1, counting_congr hl, if_pos (counting_of_running hr), hb]
  · exact (other t m hm _ rfl).2.trans h

/-- A line that the generator does not time receives nothing. -/
theorem frameBitClocks_received_other {g : Fin 2} {n : Line} {s : State} (ht : s.timedBy g n = false)
    (samples : Tab (List Bool) 8) : (frameBitClocks g samples s).received.get n = s.received.get n := by
  refine foldl_invariant (fun t => t.received.get n = s.received.get n) _ (fun t m h => ?_) _ _ rfl
  split
  · split
    · next hm =>
      have ne : n ≠ m := fun e => by rw [e, hm] at ht; cases ht
      exact ((bitClocks_received m _ t).2 n ne).trans h
    · exact h
  · exact h

/-! ### The frame start -/

theorem timedBy_congr {s t : State} (h : t.lines = s.lines) (g : Fin 2) : t.timedBy g = s.timedBy g := by
  funext n
  simp only [State.timedBy, h]

/-- Every side of every timed line has been taken, each one once (log 5). -/
theorem frameStart_progress (g : Fin 2) (order : List Part) {b : State} (h : b.evq.records = []) :
    FrameProgress (b.timedBy g) (b.timedBy g) (b.timedBy g) b (frameStart g order b) := by
  obtain ⟨nodup, mem⟩ := frameStartTakesEachSideOnce (b.timedBy g) order
  have start : SidesTaken [] b (b.withGens (b.gens.put g { b.gens.get g with frameStarts := (b.gens.get g).frameStarts + 1 })) := by
    obtain ⟨order, bounds, units, stores, syncs, waits, handed⟩ := FrameProgress.refl h
    have counted : FrameProgress neither neither neither b
        (b.withGens (b.gens.put g { b.gens.get g with frameStarts := (b.gens.get g).frameStarts + 1 })) :=
      ⟨order, bounds.thenReports (.refl b) (.refl b), units.frame, stores, ⟨syncs.only, syncs.all⟩,
        fun hm => (waits hm).thenFlags .same id rfl rfl, fun hm => (by cases hm)⟩
    exact counted.congr (fun _ => rfl) (fun _ => rfl) fun _ => rfl
  have all := start.takeParts (frameStartOrder (b.timedBy g) order) (by simpa using nodup)
  have side : ∀ sd n, sideIn sd ([] ++ frameStartOrder (b.timedBy g) order) n = b.timedBy g n := fun sd n => by
    rw [Bool.eq_iff_iff]
    simpa [sideIn] using mem ⟨n, sd⟩
  refine all.congr (fun n => ?_) (side .transmit) (side .receive)
  rw [lineIn, eitherLine, side, side, Bool.or_self]

theorem frameStart_gens (g : Fin 2) (order : List Part) (s : State) : (frameStart g order s).gens
    = s.gens.put g { s.gens.get g with frameStarts := (s.gens.get g).frameStarts + 1 } :=
  foldl_invariant (fun t => t.gens = s.gens.put g { s.gens.get g with frameStarts := (s.gens.get g).frameStarts + 1 }) _
    (fun t p h => by rw [← h]; simp) _ _ rfl

/-- A line that a frame start reaches is LOCKED (R9). -/
theorem LineUnit.reached_locked {l : LineUnit} (h : l.receiver = .hunt ∨ l.receiver = .locked) : l.reached.receiver = .locked := by
  unfold reached; split
  · rfl
  · next hh => exact h.resolve_left hh

/-- The buffer that took a line's frame, in terms of the state before the bit clocks. -/
theorem FrameTaken.buffer {b : State} {n : Line} {st before : Store} (h : FrameTaken b n st)
    (same : before.SameFrames (b.stores.get n)) (hh : (b.lines.get n).receiver ≠ .hunt) {i : Fin 4}
    (hi : before.filling = some i) (hnew : before.NextNumberIsNewest) : ∃ c : Buffer, st.buffers.get i
      = c.take (before.frameCount + 1) (judge (b.lines.get n) (b.completedFrame n) false).damaged (b.completedFrame n) := by
  obtain ⟨c, hc⟩ := h.takes i (by rw [same.filling]; exact hi) (same.nextNumberIsNewest hnew)
  rw [LineUnit.reached_of_ne hh, same.frameCount] at hc
  exact ⟨c, hc⟩

/-- What the queue takes of the SYNC records of a frame start. -/
theorem SyncsSent.taken {opened : Line → Bool} {b s v t : State} (h : SyncsSent opened b v) {sent : List EventRecord}
    (k : TakenInTurn s v t sent) :
    (∀ r ∈ sent, r.kind = .sync → ∃ p : PhysLine, opened p.line = true ∧ (b.lines.get p.line).receiver = .hunt
      ∧ r = b.syncRecord p.line)
    ∧ (t.evq.records.length < 32 ∨ t.irq.evqLoss = false → ∀ p : PhysLine, opened p.line = true →
      (b.lines.get p.line).receiver = .hunt → b.syncRecord p.line ∈ sent) := by
  refine ⟨fun r hr hk => h.only r (k.mem r hr) hk, fun hroom p hp hunt => ?_⟩
  have perm := k.all hroom
  refine perm.mem_iff.mpr (h.all (hroom.imp (fun hl => ?_) fun hl => ?_) p hp hunt)
  · rw [k.records, List.length_append, perm.length_eq] at hl; omega
  · rw [Bool.eq_false_iff] at hl ⊢
    exact fun hv => hl (k.loss hv)

/-- Settles O13: each side of each timed line is a boundary, whatever the order of the sides. -/
theorem frameStartIsABoundaryOfItsLines : Obligations.FrameStartIsABoundaryOfItsLines := by
  refine ⟨fun g samples order turns s hrun => ?_, fun g samples order turns s hrun => ?stopped⟩
  case stopped =>
    exact congrArg Host.Outcome.next (if_neg (by rw [hrun]; decide))
  have step : exec (.fgFrameStart g samples ⟨order, turns⟩) s = .next (fgFrameStart g samples order turns s) := rfl
  have only := fgFrameStart_onlyChanges g samples order turns s
  have start : fgFrameStart g samples order turns s = inTurn turns (frameStart g order) (frameBitClocks g samples s) :=
    if_pos hrun
  have bits := BitsTaken.frameBitClocks g samples s
  have received := fun p ht hr => frameBitClocks_received (g := g) (p := p) (s := s) ht hr samples
  have others := fun n ht => frameBitClocks_received_other (g := g) (n := n) (s := s) ht samples
  generalize frameBitClocks g samples s = u at *
  generalize fgFrameStart g samples order turns s = t at *
  have lines : (gathering u).lines = s.lines := bits.same .lines
  have progress := frameStart_progress g order (b := gathering u) rfl
  rw [timedBy_congr lines g] at progress
  have bounds : Bounds (s.timedBy g) (s.timedBy g) s t := start ▸ Bounds.inTurn bits progress.bounds fun _ => id
  have gens := frameStart_gens g order (gathering u)
  have queue := inTurn_taken turns (frameStart g order) u
  change ∃ taken, TakenInTurn u (frameStart g order (gathering u)) _ taken at queue
  rw [← start] at queue
  have sameLines : t.lines = (frameStart g order (gathering u)).lines := by simp [start, gathering]
  have sameCounters : t.counters = (frameStart g order (gathering u)).counters := by simp [start, gathering]
  have sameWindows : t.windows = (frameStart g order (gathering u)).windows := by simp [start, gathering]
  have sameReceived : t.received = (frameStart g order (gathering u)).received := by simp [start, gathering]
  have sameStores : t.stores = (frameStart g order (gathering u)).stores := by simp [start, gathering]
  have sameHost : t.host = (frameStart g order (gathering u)).host := by simp [start, gathering]
  have sameTxas : t.txas = (frameStart g order (gathering u)).txas := by simp [start, gathering]
  have sameGens : t.gens = (frameStart g order (gathering u)).gens := by simp [start, gathering]
  have sameIsolating : t.isolating hostLine = (frameStart g order (gathering u)).isolating hostLine :=
    isolating_of_same (by simp [start, gathering]) (by simp [start, gathering]) (by simp [start, gathering]) hostLine
  generalize frameStart g order (gathering u) = v at *
  obtain ⟨-, -, units, stores, syncs, waits, handed⟩ := progress
  have gensBefore : (gathering u).gens = s.gens := bits.same .gens
  have countersBefore : (gathering u).counters = s.counters := bits.same .counters
  have windowsBefore : (gathering u).windows = s.windows := bits.same .windows
  have hostBefore : (gathering u).host = s.host := bits.same .host
  have txasBefore : (gathering u).txas = s.txas := bits.same .txas
  have evq : u.evq = s.evq := bits.same .evq
  have frames : ∀ n, (s.stores.get n).SameFrames ((gathering u).stores.get n) := bits.frames
  have stamps : ∀ n, (gathering u).syncRecord n = ⟨.sync, n, 0, 1, 3, s.stampOf n⟩ := fun n => by
    rw [State.syncRecord, State.stampOf, (frames n).frameCount]; rfl
  refine ⟨t, step, only, ?_, fun h hh => ?_, fun n hn => ?timed, fun p hp => ?stores, fun hh => ?_, fun hh => ?host, ?sent,
    bounds.boundariesOf, fun n hn => ?untimed⟩
  · rw [sameGens, gens, gensBefore, Tab.get_put, if_pos rfl]
  · rw [sameGens, gens, gensBefore, Tab.get_put, if_neg hh]
  case timed =>
    obtain ⟨-, enabled, receiver⟩ := KeptByLineEvents.timed_of_timedBy hn
    have unit := units.unit n
    rw [hn, if_pos rfl, if_pos rfl, lines] at unit
    obtain ⟨config, txCounter, still⟩ := (s.lines.get n).reached_config
    have locked := LineUnit.reached_locked receiver
    rw [sameLines, State.running, sameLines, unit]
    refine ⟨by simp [LineUnit.running, still, enabled, locked], config, txCounter, ?_, fun hne => ⟨?_, ?_⟩⟩
    · obtain ⟨placed, -, mem, loads, -⟩ := bounds.claims
      rw [loads]
      exact List.mem_append_right _ ((mem n).mpr hn)
    · rw [sameReceived, units.received, if_pos ⟨hn, hne⟩]
    · rw [sameStores]; exact (stores n hne hn).receiving
  case stores =>
    have taken := stores p.line (physLine_ne_host p) hp
    refine ⟨by rw [sameStores, taken.frameCount, (frames _).receiving, (frames _).frameCount], fun hr i hi hnew => ?_⟩
    intro frame
    have running : (s.lines.get p.line).receiver ≠ .hunt := by
      intro h; simp [State.running, LineUnit.running, h] at hr
    obtain ⟨c, hc⟩ := taken.buffer (frames _) (by rw [lines]; exact running) hi hnew
    have completed : (gathering u).completedFrame p.line = frame := by
      rw [State.completedFrame, lines]
      exact congrArg _ (received p hp hr)
    rw [lines, completed] at hc
    have length : frame.length = (s.lines.get p.line).config.slotCount := length_fullFrame _ _
    rw [sameStores, hc]
    exact ⟨rfl, rfl, rfl, length, fun k hk => getD_overwrite _ (by rw [length]; exact hk)⟩
  · rw [sameHost, (waits hh).host, hostBefore]
  case host =>
    obtain ⟨span, -, host, count, noFrame, dropped, captured⟩ := handed hh
    rw [hostBefore] at host count noFrame dropped captured
    rw [txasBefore] at noFrame dropped captured
    rw [(frames _).frameCount] at count
    rw [sameHost, sameStores, sameTxas, sameIsolating]
    exact ⟨host, count, span, noFrame, fun f hf => ⟨dropped f hf, captured f hf⟩⟩
  case sent =>
    obtain ⟨taken, took⟩ := queue
    have sent := syncs.taken took
    simp only [stamps, lines] at sent
    exact ⟨taken, by rw [took.records, evq], sent⟩
  case untimed =>
    have unit := units.unit_of_waits hn
    rw [hn, if_neg Bool.false_ne_true, lines] at unit
    rw [sameLines, sameCounters, sameWindows, sameReceived]
    refine ⟨unit, bounds.released.kept n hn, by rw [units.counters n hn, countersBefore],
      by rw [units.windows n hn, windowsBefore], ?_⟩
    rw [units.received, if_neg (fun h => by rw [hn] at h; cases h.1)]
    exact others n hn

end Sys2Proof.Machine
end
